-- ==== Sys2Proof/Word.lean ====
section
/-! DEFINITION. The word types of the SV7420: bytes, node numbers, stamps, phases, slots. -/

namespace Sys2Proof

/-- One byte of a stream, a tag or a management frame. -/
abbrev Byte := BitVec 8

/-- A 16-bit field: node numbers, trail numbers, epochs, masks, check values. -/
abbrev Half := BitVec 16

/-- A stamp: a value of the 32-bit stamp counter (R1). -/
abbrev Stamp := BitVec 32

/-- A cycle phase, 0..31, phase 0 following phase 31 (R3, R7). -/
abbrev Phase := BitVec 5

/-- A trail slot, 0..127 (R3). -/
abbrev Slot := Fin 128

end Sys2Proof
end

