-- ==== Sys2Proof/Syntax.lean ====
section
/-! DEFINITION. The commands and events of the SV7420: one constructor per row of the table of steps. -/

namespace Sys2Proof

/-- A side of the part: the line-facing pair (line-in, line-out) or the drop-facing pair (drop-in, drop-out).
It names a receiver, an output, a channel receiver, a reply buffer or an arbiter. -/
inductive Side where
  | line
  | drop
  deriving DecidableEq, Repr

/-- What one carrier frame holds for one slot: its three overhead bytes and its payload bytes in order (R3). -/
structure SlotBytes where
  tag : Byte
  parity : Byte
  condition : Byte
  payload : List Byte
  deriving DecidableEq, Repr

/-- A carrier frame as received, by the fields of R3: bytes 0-3, byte 4, bytes 5-8, bytes 9-63 and the slots. -/
structure Frame where
  word : Vector Byte 4
  phase : Byte
  mgmt : Vector Byte 4
  carried : List Byte
  slots : Vector SlotBytes 128
  deriving DecidableEq, Repr

/-- A frame at the expected position of a receiver in LOCKED. `sent` counts the bytes that the opposite output has sent of
its own frame when this event cuts that frame off (R14, R16). -/
structure Arrival where
  frame : Frame
  sent : Nat
  deriving DecidableEq, Repr

/-- The end of a RESTART reply on a side. `sent` counts the bytes that the other output has sent of its own frame at that
moment (R163). -/
structure RestartMoment where
  side : Side
  sent : Nat
  deriving DecidableEq, Repr

/-- Where a local period boundary is taken: at the timebase, which raises it, or at one of the blocks to which
it is delivered as an event of its own (R2). -/
inductive BoundaryAt where
  | timebase
  | context (slot : Slot)
  | probeEngine
  deriving DecidableEq, Repr

/-- The blocks that READ STATUS and CLEAR DETECTED send their requests to (R166, R180). -/
inductive Block where
  | managementUnit
  | lineReceiver
  | dropReceiver
  | lineTransmitter
  | dropTransmitter
  | reportUnit
  | probeEngine
  | routePool
  | timebase
  deriving DecidableEq, Repr

/-- The steps of the part. A constructor's docstring names its row and the rule that the row cites. Events that
one block hands to another carry the slot at which they are taken; the events' content waits in the state. Requests
of the management channel carry the side they arrived on; their parameters wait in the state. -/
inductive Instr where
  /-- POWER_ON (R18). -/
  | powerOn
  /-- LOCAL_PERIOD_BOUNDARY (R2). -/
  | localPeriodBoundary (target : BoundaryAt)
  /-- SETTLE_LIMIT_REACHED (R82). -/
  | settleLimitReached (slot : Slot)
  /-- SOAK_END (R88). -/
  | soakEnd (slot : Slot)
  /-- DEFECT_HOLD_REACHED (R93). -/
  | defectHoldReached (slot : Slot)
  /-- INTERVAL_COUNT_EXPIRY (R109). -/
  | intervalCountExpiry
  /-- PROBE_TIMEOUT (R112), by the index of the entry. -/
  | probeTimeout (index : Fin 8)
  /-- HUNT_CANDIDATE (R6): the input's bytes from the receiver's search position on. -/
  | huntCandidate (side : Side) (input : List Byte)
  /-- CONFIRM_FRAME (R7): the five bytes that stand one frame length after the candidate. -/
  | confirmFrame (side : Side) (word : Vector Byte 4) (phase : Byte)
  /-- LOCKED_FRAME_JUDGED (R8): the frame at the expected position. -/
  | lockedFrameJudged (side : Side) (arrival : Arrival)
  /-- CYCLE_REPORT (R74). -/
  | cycleReport (slot : Slot)
  /-- STREAM_LOSS (R75). -/
  | streamLoss (slot : Slot)
  /-- TRANSMIT_CYCLE_START (R32). -/
  | transmitCycleStart
  /-- TRANSMIT_CYCLE_COMPLETE (R37). -/
  | transmitCycleComplete
  /-- LOCAL_FRAME_START (R15), by the output. -/
  | localFrameStart (output : Side)
  /-- ECHO_RECEIPT (R115). -/
  | echoReceipt (slot : Slot)
  /-- ACCEPTED_SAMPLE (R92). -/
  | acceptedSample (slot : Slot)
  /-- WITHDRAW_REQUEST (R113). -/
  | withdrawRequest (slot : Slot)
  /-- FILTER_RESET_REQUEST (R114). -/
  | filterResetRequest (slot : Slot)
  /-- BASELINE_WRITE (R77). -/
  | baselineWrite (slot : Slot)
  /-- FINDING (R145). -/
  | finding (slot : Slot)
  /-- NOTICE_START (R147): `skip` management byte positions of the output frame pass idle before it. -/
  | noticeStart (skip : Nat)
  /-- ARBITER_FRAME_START (R160): `skip` management byte positions of the output frame pass idle before it. -/
  | arbiterFrameStart (output : Side) (skip : Nat)
  /-- ARBITER_FRAME_END (R158), by the output. -/
  | arbiterFrameEnd (output : Side)
  /-- MANAGEMENT_FRAME (R154), by the side of the channel receiver. -/
  | managementFrame (side : Side)
  /-- SET_NODE_IDENTITY (R165). -/
  | setNodeIdentity (side : Side)
  /-- READ_STATUS (R166): the read of one block. -/
  | readStatus (side : Side) (block : Block)
  /-- OPEN_WINDOW (R77). -/
  | openWindow (side : Side)
  /-- CLOSE_WINDOW (R78). -/
  | closeWindow (side : Side)
  /-- SET_SLOT_ROLES (R42). -/
  | setSlotRoles (side : Side)
  /-- LOAD_MAP_ENTRY (R52). -/
  | loadMapEntry (side : Side)
  /-- CLEAR_MAP_ENTRY (R53). -/
  | clearMapEntry (side : Side)
  /-- LINK_ROUTE (R64). -/
  | linkRoute (side : Side)
  /-- SET_PROFILE (R55). -/
  | setProfile (side : Side)
  /-- SET_PROBING (R174). -/
  | setProbing (side : Side)
  /-- SET_REPORTING (R149). -/
  | setReporting (side : Side)
  /-- REVERIFY (R176). -/
  | reverify (side : Side)
  /-- QUERY_TRAIL (R177). -/
  | queryTrail (side : Side)
  /-- QUERY_TAG (R178). -/
  | queryTag (side : Side)
  /-- QUERY_ROUTE (R67). -/
  | queryRoute (side : Side)
  /-- CLEAR_DETECTED (R180): the clear at one block. -/
  | clearDetected (side : Side) (block : Block)
  /-- RESTART (R181). -/
  | restart (side : Side)
  /-- RESTART_TAKES_EFFECT (R163). -/
  | restartTakesEffect (moment : RestartMoment)
  /-- CONTEXT_RESTART (R103). -/
  | contextRestart (slot : Slot)
  /-- REFCLK_TICK (R1). -/
  | refclkTick
  /-- RESETN_ASSERTED (R144). -/
  | resetnAsserted
  /-- TAG_RECEIVER_RESTART (R31). -/
  | tagReceiverRestart
  /-- LINE_TRANSMITTER_RESTART (R38). -/
  | lineTransmitterRestart
  /-- PROBE_ENGINE_RESTART (R124). -/
  | probeEngineRestart
  /-- REPORT_UNIT_RESTART (R151). -/
  | reportUnitRestart
  deriving DecidableEq, Repr

end Sys2Proof
end

