-- ==== Sys2Proof/Decode.lean ====
section
/-! DEFINITION. The table of steps gives no row any bits, so no word spells a command. -/

namespace Sys2Proof

/-- The command that a word of the table's bits spells. The table gives bits to none of its rows. -/
def decodeTableWord (_nbits _w : Nat) : Option Instr := none

end Sys2Proof
end

