-- ==== Sys2Proof/Config.lean ====
section
/-! DEFINITION. The constants that the manual fixes for the part. -/

namespace Sys2Proof.Config

/-- Length of a carrier frame in bytes (R3). -/
abbrev frameBytes : Nat := 250304

/-- Ticks of a carrier frame generated in LOCAL (R15). -/
abbrev frameTicks : Nat := 512

/-- Ticks of a local period and of a nominal tag cycle (R2, R120, R126). -/
abbrev periodTicks : Nat := 16384

/-- Payload bytes of one slot in one frame (R3). -/
abbrev payloadBytes : Nat := 1952

/-- Carried common-overhead bytes of one frame, bytes 9 to 63 (R3). -/
abbrev carriedBytes : Nat := 55

/-- How many bytes of a frame have been sent once its last tag byte has, that of slot 127 at byte 445 (R3). -/
abbrev tagBytesEnd : Nat := 446

/-- The largest payload of a management frame (R152). -/
abbrev maxPayload : Nat := 200

/-- Upper bound of the 16-bit saturating counts (R72, R123, R128, R154, R157, R158). -/
abbrev countMax : Nat := 65535

/-- Upper bound of fixed delays, holds and baselines, 2^24 - 1 (R44, R121). -/
abbrev delayMax : Nat := 16777215

/-- The acceptance range of samples: 2^20 ticks or more are rejected (R127). -/
abbrev sampleLimit : Nat := 1048576

/-- The alignment word, bytes 0 to 3 of every frame (R3). -/
def alignmentWord : Vector Byte 4 := #v[0xD3, 0x2E, 0x71, 0x0C]

/-- The kind byte of a trail tag (R19). -/
abbrev tagKind : Byte := 0x5C

/-- The start byte of a management frame (R152). -/
abbrev frameStart : Byte := 0xC3

/-- The local management address (R156). -/
abbrev localAddress : Half := 65535

/-- The revision that READ STATUS reports (R166). -/
abbrev revision : Byte := 0x01

end Sys2Proof.Config
end

