-- ==== Sys2Proof/Machine/State.lean ====
section
/-! DEFINITION. The state of the SV7420: every piece of state the manual names, as plain data, and its value after
reset. Per-slot state stands in `SlotState`, one record per slot; part-wide state in `State`. State the manual only
implies stands beside it: events that one block has handed to another and that the other has not yet taken
(`InFlight`, `Request`, the `…Due` fields). -/

namespace Sys2Proof.Machine

/-- A pair of like things, one for each side. -/
structure Sides (α : Type) where
  line : α
  drop : α
  deriving DecidableEq, Repr

/-! ## Timebase -/

/-- The timebase (R1, R2). `boundariesDue` counts the boundaries that the stamp counter has reached and the period
clock has not yet counted. -/
structure Timebase where
  stamp : Stamp
  periodClock : BitVec 32
  boundariesDue : Nat
  deriving DecidableEq, Repr

/-! ## Receivers and outputs -/

/-- The alignment state of a receiver (R6, R7, R8). In CONFIRM it holds the candidate frame start and phase. -/
inductive Align where
  | hunt
  | confirm (start : Nat) (phase : Phase)
  | locked
  deriving DecidableEq, Repr

/-- A receiver. Positions count the bytes of its input from power-on. `searchFrom` is where HUNT examines next. -/
structure Receiver where
  align : Align
  missCount : Nat
  phase : Option Phase
  nextStart : Option Nat
  searchFrom : Nat
  deriving DecidableEq, Repr

/-- The timing source of an output (R13, R15). -/
inductive Timing where
  | follow
  | localTimed
  deriving DecidableEq, Repr

/-- A frame of an output (R5). Its word is always the alignment word. `placed` holds the bytes of the management byte
positions that it has reached so far. `tagsSent` says that its last tag byte is known to have been sent, because its
tag cycle has been recorded as complete (R37). `cut` holds, for a frame cut off, how many of its bytes were sent (R14,
R16). -/
structure OutFrame where
  phase : Phase
  tagsSent : Bool
  placed : List Byte
  carried : List Byte
  slots : Vector SlotBytes 128
  cut : Option Nat
  deriving DecidableEq, Repr

/-- An output. `frame` is the frame that it is sending, or in the gap of R14 the one cut off; `last` is the frame before
it, as it was sent. `frameDue` says that the stamp counter stands at a multiple of 512 whose LOCAL frame (R15) has not
been started. -/
structure Output where
  timing : Timing
  frame : Option OutFrame
  last : Option OutFrame
  frameDue : Bool
  deriving DecidableEq, Repr

/-! ## Trail tags -/

/-- An identity: source node, source port and trail number (R19). -/
structure Identity where
  node : Half
  port : Byte
  trail : Half
  deriving DecidableEq, Repr

/-- The persistent fields of a tag (R26). `route` is its route record, whose length is the route count (R19). -/
structure HeldTag where
  identity : Identity
  epoch : Half
  windowFlag : Bool
  overflow : Bool
  route : List Half
  deriving DecidableEq, Repr

/-- A protect state (R28). -/
inductive Protect where
  | working
  | protect
  deriving DecidableEq, Repr

/-- The tag faults (R24). -/
inductive TagFault where
  | slip
  | incomplete
  | checkError
  | foreign
  | malformed
  deriving DecidableEq, Repr

/-- The result of a tag cycle (R24). -/
inductive TagResult where
  | valid
  | invalid (f : TagFault)
  deriving DecidableEq, Repr

/-- A valid tag as received, 32 bytes, with the cycle-start stamp of its cycle (R25). -/
structure StampedTag where
  bytes : List Byte
  stamp : Stamp
  deriving DecidableEq, Repr

/-- The tag receiver's state of one slot (R21 to R28). -/
structure TagReceiver where
  assembly : Vector (Option Byte) 32
  slipMark : Bool
  paritySum : Nat
  forwardDefectSeen : Bool
  protectBit : Bool
  runLength : Nat
  lastValid : Option StampedTag
  held : Option HeldTag
  tagLossCount : Nat
  heldProtect : Protect
  candidate : Option Protect
  lastFault : Option TagFault
  deriving DecidableEq, Repr

/-- A cycle report (R29); its slot is the slot at which it waits. -/
structure CycleReport where
  result : TagResult
  parityErrors : Nat
  forwardDefectSeen : Bool
  held : Option HeldTag
  heldChanged : Bool
  protect : Protect
  protectChanged : Bool
  tagLoss : Bool
  cycleStart : Option Stamp
  deriving DecidableEq, Repr

/-- The probe and echo fields of a valid tag, as handed to the probe engine (R30). -/
structure EchoHandoff where
  probeNumber : Byte
  probeAge : Nat
  echoNumber : Byte
  echoAge : Nat
  echoHold : Nat
  cycleStart : Stamp
  deriving DecidableEq, Repr

/-- The receive roles (R39). -/
inductive RxRole where
  | monitor
  | terminate
  deriving DecidableEq, Repr

/-- The transmit roles (R40). -/
inductive TxRole where
  | carry
  | stamp
  | originate
  deriving DecidableEq, Repr

/-- The values latched for one slot at a transmit cycle start (R32). -/
structure Latched where
  role : TxRole
  port : Byte
  trail : Half
  epoch : Half
  window : Bool
  probeNumber : Byte
  probeAge : Nat
  echoNumber : Byte
  echoAge : Nat
  echoHold : Nat
  deriving DecidableEq, Repr

/-- The stamping decision of a STAMP slot in the cycle in progress (R34): not yet made; byte 0 was 5Ch; carried
unchanged for the whole cycle; carried from byte 16 on; stamped, with the received route count. -/
inductive StampDecision where
  | undecided
  | candidate
  | carried
  | carriedTail
  | stamped (count : Nat)
  deriving DecidableEq, Repr

/-- The sources of a last emitted tag (R37). -/
inductive TagSource where
  | originated
  | stamped
  | carried
  | idle
  deriving DecidableEq, Repr

/-- A completed emitted tag and its source (R37). -/
structure EmittedTag where
  source : TagSource
  bytes : List Byte
  deriving DecidableEq, Repr

/-- The line transmitter's state of one slot (R32, R34, R35, R37). `completed` is a cycle whose phase-31 byte has
been emitted and which has not yet replaced the record. -/
structure TagTransmitter where
  latched : Latched
  decision : StampDecision
  receivedCheck : Half
  emittedCheck : Half
  highRight : Bool
  emitted : List Byte
  completed : Option EmittedTag
  lastEmitted : Option EmittedTag
  deriving DecidableEq, Repr

/-- A transmit tag cycle in progress on line-out: its cycle-start stamp and the phase it reaches next (R17). -/
structure TxCycle where
  start : Stamp
  next : Nat
  deriving DecidableEq, Repr

/-- The line transmitter's part-wide state: the latched node identity, the cycle in progress, whether a line-out frame of
phase 0 has started whose transmit cycle start has not been taken (R17, R32), and whether the frame that line-out is
sending carries the phase-31 bytes of a tag cycle (R37). -/
structure LineTransmitter where
  identity : Option Half
  cycle : Option TxCycle
  startDue : Bool
  ending : Bool
  deriving DecidableEq, Repr

/-! ## Trail map -/

/-- The match mode of an entry with the fields it uses (R45, R46). -/
inductive MatchMode where
  | masked (expected mask : Identity)
  | listed (a : Identity) (b : Option Identity)
  deriving DecidableEq, Repr

/-- The route check of an entry (R49). -/
inductive RouteCheck where
  | none
  | exact
  deriving DecidableEq, Repr

/-- The delay mode of an entry (R50). -/
inductive DelayMode where
  | none
  | baseline
  | fixed (delay : Nat)
  deriving DecidableEq, Repr

/-- A LOADED map entry (R44). -/
structure MapEntry where
  mode : MatchMode
  routeCheck : RouteCheck
  delay : DelayMode
  profile : Fin 8
  deriving DecidableEq, Repr

/-- The match results (R47). -/
inductive MatchResult where
  | matched
  | matchedA
  | matchedB
  | noMatch
  deriving DecidableEq, Repr

/-- The condition of a hop (R58). -/
inductive HopCondition where
  | always
  | workingOnly
  | protectOnly
  deriving DecidableEq, Repr

/-- An allocated hop entry: its index in the route pool, its node and its condition (R58). -/
structure Hop where
  index : Fin 256
  node : Half
  condition : HopCondition
  deriving DecidableEq, Repr

/-- The trail map's state of one slot (R39 to R53). `entry` is absent when EMPTY; `route` is the slot's route list,
from its head to its last hop, empty when the slot has none (R60). -/
structure SlotMap where
  rxRole : RxRole
  txRole : TxRole
  originPort : Byte
  originTrail : Half
  originEpoch : Half
  entry : Option MapEntry
  expectedEpoch : Half
  route : List Hop
  workingBaseline : Option Nat
  protectBaseline : Option Nat
  deriving DecidableEq, Repr

/-- A check profile (R54). -/
structure Profile where
  settleLimit : Nat
  soakLength : Nat
  erroredAllowance : Nat
  minSamples : Nat
  restartBudget : Nat
  filterWeight : Nat
  tolerance : Nat
  shiftPersistence : Nat
  defectHold : Nat
  deriving DecidableEq, Repr

/-! ## Verification -/

/-- The states of a verification context (R73). -/
inductive CheckState where
  | idle
  | window
  | settling
  | soaking
  | verified
  | failed
  deriving DecidableEq, Repr

/-- The wait reasons (R72). -/
inductive WaitReason where
  | noTag
  | defect
  | farWindow
  | staleEpoch
  deriving DecidableEq, Repr

/-- The ten failure causes and the three restart causes (R72, R139). -/
inductive Cause where
  | noTag
  | defect
  | farWindow
  | staleEpoch
  | misconnected
  | routeMismatch
  | errors
  | unstable
  | noDelay
  | delayShift
  | restartDefect
  | restartFarWindow
  | restartProtect
  deriving DecidableEq, Repr

/-- A verification context (R72). -/
structure Context where
  state : CheckState
  waitReason : WaitReason
  lastCause : Option Cause
  settleTimer : Nat
  soakCount : Nat
  erroredCount : Nat
  restartCount : Nat
  strikes : Nat
  defectTimer : Nat
  defectNow : Bool
  lossMark : Bool
  findingPending : Bool
  deriving DecidableEq, Repr

/-! ## Probing -/

/-- A probe table entry (R104). `launch` is the launch stamp: absent while ARMED, present while IN_FLIGHT. -/
structure ProbeEntry where
  slot : Slot
  number : Byte
  launch : Option Stamp
  remaining : Nat
  deriving DecidableEq, Repr

/-- A probe field: a number with an age (R105). -/
structure ProbeField where
  number : Byte
  age : Nat
  deriving DecidableEq, Repr

/-- A pending echo: the probe number and its effective receive stamp (R120). -/
structure PendingEcho where
  number : Byte
  received : Stamp
  deriving DecidableEq, Repr

/-- An echo field: a number, an age and a hold (R120). -/
structure EchoField where
  number : Byte
  age : Nat
  hold : Nat
  deriving DecidableEq, Repr

/-- The probe engine's state of one slot (R105, R120, R128). -/
structure SlotProbe where
  nextNumber : Byte
  field : Option ProbeField
  lastEcho : Byte
  lastResponded : Byte
  pendingEcho : Option PendingEcho
  echoField : Option EchoField
  average : Option Nat
  sampleCount : Nat
  deriving DecidableEq, Repr

/-- The probe engine's part-wide state (R104, R106, R108, R109, R123). `boundariesDue` counts the local period
boundaries delivered to it and not yet taken. -/
structure ProbeEngine where
  table : Vector (Option ProbeEntry) 8
  rotationIndex : Slot
  intervalCount : Nat
  interval : Nat
  timeout : Nat
  lost : Nat
  late : Nat
  rejected : Nat
  boundariesDue : Nat
  deriving DecidableEq, Repr

/-! ## Findings -/

/-- The kinds of finding (R139). -/
inductive FindingKind where
  | verified
  | failed
  | restarted
  deriving DecidableEq, Repr

/-- A finding as the context hands it over (R96). The match result goes with the held identity. -/
structure Finding where
  slot : Slot
  kind : FindingKind
  cause : Option Cause
  epoch : Half
  clock : BitVec 32
  identity : Option Identity
  result : Option MatchResult
  erroredCount : Nat
  restartCount : Nat
  baselineSet : Bool
  average : Option Nat
  oneWay : Option Nat
  shift : Option (Int × Bool)
  deriving DecidableEq, Repr

/-- The classes of a finding (R140). -/
inductive FindingClass where
  | info
  | minor
  | major
  | critical
  deriving DecidableEq, Repr

/-- The classes a cause may be given in the severity table: INFO is not one of them (R140). -/
inductive Severity where
  | minor
  | major
  | critical
  deriving DecidableEq, Repr

/-- A record of the finding queue (R141). -/
structure QueuedFinding where
  finding : Finding
  cls : FindingClass
  superseded : Nat
  deriving DecidableEq, Repr

/-- One yes or no for each of MINOR, MAJOR and CRITICAL (R143, R144). -/
structure PerSeverity where
  minor : Bool
  major : Bool
  critical : Bool
  deriving DecidableEq, Repr

/-- The report settings (R149). `severity` is indexed by cause code less 1. -/
structure ReportSettings where
  side : Side
  destination : Option Half
  reportInfo : Bool
  report : PerSeverity
  alertEnable : PerSeverity
  severity : Vector Severity 13
  deriving DecidableEq, Repr

/-- The report unit (R143 to R149). `alert` is the level of the ALERT output, high when set. -/
structure ReportUnit where
  queue : List QueuedFinding
  seen : PerSeverity
  settings : ReportSettings
  alert : Bool
  deriving DecidableEq, Repr

/-! ## Management -/

/-- A channel receiver (R153): `taken` is absent in SEARCH and holds the bytes taken in COLLECT. `completed` holds,
oldest first, the frames whose last check byte has been taken and which have not been judged. -/
structure Channel where
  taken : Option (List Byte)
  completed : List (List Byte)
  deriving DecidableEq, Repr

/-- A forward buffer (R157). The bytes of a frame being sent stand in the arbiter. -/
inductive ForwardBuffer where
  | free
  | holding (bytes : List Byte)
  | sending
  deriving DecidableEq, Repr

/-- A reply buffer (R158); `isRestart` marks the reply to a RESTART (R163). -/
inductive ReplyBuffer where
  | free
  | reserved
  | holding (bytes : List Byte) (isRestart : Bool)
  | sending (isRestart : Bool)
  deriving DecidableEq, Repr

/-- What an arbiter's frame came from (R160). -/
inductive FrameSource where
  | forward
  | reply
  | notice
  deriving DecidableEq, Repr

/-- A frame an arbiter is sending: its source and the bytes still to place (R160). It has ended once there is none, and its
end waits to be taken. -/
structure Sending where
  source : FrameSource
  rest : List Byte
  deriving DecidableEq, Repr

/-- The seventeen command codes (R164). -/
inductive Command where
  | setNodeIdentity
  | readStatus
  | openWindow
  | closeWindow
  | setSlotRoles
  | loadMapEntry
  | clearMapEntry
  | linkRoute
  | setProfile
  | setProbing
  | setReporting
  | reverify
  | queryTrail
  | queryTag
  | queryRoute
  | clearDetected
  | restart
  deriving DecidableEq, Repr

/-- A request sent to its owner and not yet taken whole: the RESERVED interval of R158. `payload` holds the command
code and parameters; `todo` the blocks still to take their part of a READ STATUS or CLEAR DETECTED, and `data` the
status bytes read so far; `live` is cleared when a restart discards the outcome (R182). -/
structure Request where
  side : Side
  command : Command
  source : Half
  sequence : Byte
  payload : List Byte
  todo : List Block
  data : List Byte
  live : Bool
  deriving DecidableEq, Repr

/-- The management unit (R152 to R163). An absent arbiter entry is an idle arbiter. `restartEnded` marks a RESTART reply
whose last byte had been placed when the other side's restart took effect, and whose own restart has not (R182). -/
structure ManagementUnit where
  identity : Option Half
  channel : Sides Channel
  forward : Sides ForwardBuffer
  reply : Sides ReplyBuffer
  arbiter : Sides (Option Sending)
  checkErrors : Nat
  commandDiscards : Nat
  forwardDiscards : Nat
  noticeSequence : Byte
  restartEnded : Sides Bool
  requests : List Request
  deriving DecidableEq, Repr

/-- The restart events delivered to the part-wide blocks and not yet taken (R181). -/
structure RestartsDue where
  tagReceiver : Nat
  lineTransmitter : Nat
  probeEngine : Nat
  reportUnit : Nat
  deriving DecidableEq, Repr

/-- Why a filter reset request was sent: at an entry to SETTLING (R80), or at a protect changed taken in VERIFIED (R91). -/
inductive FilterReset where
  | settling
  | protectChanged
  deriving DecidableEq, Repr

/-- The events handed to one slot's context, probe state or map entry, or made by its context, and not yet taken.
Lists stand oldest first. -/
structure InFlight where
  boundaries : Nat
  reports : List CycleReport
  losses : Nat
  samples : Nat
  restarts : Nat
  echoes : List EchoHandoff
  withdraws : Nat
  filterResets : List FilterReset
  baselines : List (Protect × Nat)
  findings : List Finding
  deriving DecidableEq, Repr

/-- All the state of one slot. `parityMemory` is the line receiver's, absent when empty (R12). -/
structure SlotState where
  map : SlotMap
  parityMemory : Option Byte
  tag : TagReceiver
  tx : TagTransmitter
  context : Context
  probe : SlotProbe
  inFlight : InFlight
  deriving DecidableEq, Repr

/-- The state of the part. `resetHeld` is the RESETN input held low. `freeHops` is the free list of the route pool
from its head (R59). `pending` is the queue of the commands that are waiting, first in, first out. -/
structure State where
  resetHeld : Bool
  timebase : Timebase
  receiver : Sides Receiver
  lineCycleStart : Option Stamp
  output : Sides Output
  lineTx : LineTransmitter
  slots : Vector SlotState 128
  profiles : Vector Profile 8
  freeHops : List (Fin 256)
  probe : ProbeEngine
  report : ReportUnit
  management : ManagementUnit
  restartsDue : RestartsDue
  pending : List Instr
  deriving DecidableEq, Repr

/-- The faults of a step. There is none: the manual gives the part no event on which it stops. The type is closed
and empty, so that no step answers with a fault. -/
inductive Fault where
  deriving DecidableEq, Repr

/-- The reasons for a refusal. -/
inductive Refusal where
  /-- Raised by an arm of exec whose row has no meaning yet; no arm raises it. Safe: it claims nothing. -/
  | notModelled (mnemonic : String)
  deriving DecidableEq, Repr

/-! ## Reset -/

/-- The parts of the reset state, each from the reset table of its chapter. -/
def Receiver.reset : Receiver :=
  { align := .hunt, missCount := 0, phase := none, nextStart := none, searchFrom := 0 }

/-- R18: LOCAL, the first frame due at stamp 0. -/
def Output.reset : Output :=
  { timing := .localTimed, frame := none, last := none, frameDue := true }

/-- R31. -/
def TagReceiver.reset : TagReceiver :=
  { assembly := Vector.replicate 32 none, slipMark := false, paritySum := 0, forwardDefectSeen := false,
    protectBit := false, runLength := 0, lastValid := none, held := none, tagLossCount := 0,
    heldProtect := .working, candidate := none, lastFault := none }

/-- R38. -/
def Latched.reset : Latched :=
  { role := .carry, port := 0, trail := 0, epoch := 0, window := false, probeNumber := 0, probeAge := 0,
    echoNumber := 0, echoAge := 0, echoHold := 0 }

/-- R38. -/
def TagTransmitter.reset : TagTransmitter :=
  { latched := .reset, decision := .undecided, receivedCheck := 0xFFFF, emittedCheck := 0xFFFF,
    highRight := false, emitted := [], completed := none, lastEmitted := none }

/-- R57. -/
def SlotMap.reset : SlotMap :=
  { rxRole := .monitor, txRole := .carry, originPort := 0, originTrail := 0, originEpoch := 0, entry := none,
    expectedEpoch := 0, route := [], workingBaseline := none, protectBaseline := none }

/-- The defaults of R54. -/
def Profile.defaults : Profile :=
  { settleLimit := 313, soakLength := 3125, erroredAllowance := 0, minSamples := 4, restartBudget := 3,
    filterWeight := 3, tolerance := 512, shiftPersistence := 3, defectHold := 313 }

/-- R102. -/
def Context.reset : Context :=
  { state := .idle, waitReason := .noTag, lastCause := none, settleTimer := 0, soakCount := 0, erroredCount := 0,
    restartCount := 0, strikes := 0, defectTimer := 0, defectNow := false, lossMark := false,
    findingPending := false }

/-- R124. -/
def SlotProbe.reset : SlotProbe :=
  { nextNumber := 1, field := none, lastEcho := 0, lastResponded := 0, pendingEcho := none, echoField := none,
    average := none, sampleCount := 0 }

/-- R124. -/
def ProbeEngine.reset : ProbeEngine :=
  { table := Vector.replicate 8 none, rotationIndex := 127, intervalCount := 0, interval := 4, timeout := 16,
    lost := 0, late := 0, rejected := 0, boundariesDue := 0 }

/-- R139, by cause code. -/
def Severity.defaults : Vector Severity 13 :=
  #v[.major, .major, .minor, .major, .critical, .major, .major, .major, .minor, .major, .minor, .minor, .minor]

/-- R149. -/
def ReportSettings.reset : ReportSettings :=
  { side := .drop, destination := none, reportInfo := true,
    report := { minor := true, major := true, critical := true },
    alertEnable := { minor := false, major := true, critical := true }, severity := Severity.defaults }

/-- R151. -/
def ReportUnit.reset : ReportUnit :=
  { queue := [], seen := { minor := false, major := false, critical := false }, settings := .reset, alert := false }

/-- R163. -/
def ManagementUnit.reset : ManagementUnit :=
  { identity := none, channel := ⟨⟨none, []⟩, ⟨none, []⟩⟩, forward := ⟨.free, .free⟩, reply := ⟨.free, .free⟩,
    arbiter := ⟨none, none⟩, checkErrors := 0, commandDiscards := 0, forwardDiscards := 0, noticeSequence := 0,
    restartEnded := ⟨false, false⟩, requests := [] }

/-- No event is in flight after reset. -/
def InFlight.reset : InFlight :=
  { boundaries := 0, reports := [], losses := 0, samples := 0, restarts := 0, echoes := [], withdraws := 0,
    filterResets := [], baselines := [], findings := [] }

/-- One slot after reset. -/
def SlotState.reset : SlotState :=
  { map := .reset, parityMemory := none, tag := .reset, tx := .reset, context := .reset, probe := .reset,
    inFlight := .reset }

/-- The machine right after reset: RESETN is released, the stamp counter stands at 0, and the first LOCAL frame of
each output is due at that stamp (R18). -/
def State.reset : State :=
  { resetHeld := false
    timebase := { stamp := 0, periodClock := 0, boundariesDue := 0 }
    receiver := ⟨.reset, .reset⟩
    lineCycleStart := none
    output := ⟨.reset, .reset⟩
    lineTx := { identity := none, cycle := none, startDue := false, ending := false }
    slots := Vector.replicate 128 .reset
    profiles := Vector.replicate 8 .defaults
    freeHops := List.finRange 256
    probe := .reset
    report := .reset
    management := .reset
    restartsDue := { tagReceiver := 0, lineTransmitter := 0, probeEngine := 0, reportUnit := 0 }
    pending := [] }

end Sys2Proof.Machine
end

