-- ==== Sys2Proof/Machine/Ops.lean ====
section
/-! DEFINITION. The shared operations: sides, slots, counts, bytes and the check. -/

namespace Sys2Proof.Machine

/-- The side opposite to a side. -/
def opposite : Side → Side
  | .line => .drop
  | .drop => .line

/-- The thing of one side. -/
def Sides.get {α : Type} (p : Sides α) : Side → α
  | .line => p.line
  | .drop => p.drop

/-- A pair with the thing of one side replaced. -/
def Sides.set {α : Type} (p : Sides α) (side : Side) (a : α) : Sides α :=
  match side with
  | .line => { p with line := a }
  | .drop => { p with drop := a }

/-- Replaces one slot's state by a function of it. -/
def State.modSlot (s : State) (i : Slot) (f : SlotState → SlotState) : State :=
  { s with slots := s.slots.set i (f s.slots[i]) }

/-- The vector of the values of a function. It is irreducible so that a check of two states compares it by its function
and does not compute its 128 places. -/
@[irreducible] def vectorOf {α : Type} {n : Nat} (f : Fin n → α) : Vector α n := Vector.ofFn f

/-- Replaces every slot's state by a function of it and its number. -/
def State.mapSlots (s : State) (f : Slot → SlotState → SlotState) : State :=
  { s with slots := vectorOf fun i : Slot => f i s.slots[i] }

/-- A step of the part: while RESETN holds it in power-on reset, nothing happens (R1, R144). -/
def act (s : State) (f : State → State) : Host.Outcome State Fault Refusal :=
  .next (if s.resetHeld then s else f s)

/-- One more, saturating at a bound. -/
def satInc (bound n : Nat) : Nat := if n < bound then n + 1 else n

/-- The number `n` as `k` bytes, most significant byte first. -/
def beBytes : Nat → Nat → List Byte
  | 0, _ => []
  | k + 1, n => BitVec.ofNat 8 (n / 256 ^ k) :: beBytes k n

/-- Bits as a number, bit 0 first. -/
def bitsToNat : List Bool → Nat
  | [] => 0
  | b :: bs => b.toNat + 2 * bitsToNat bs

/-- Byte `i` of a list of bytes; 00h beyond its end. -/
def byteAt (bs : List Byte) (i : Nat) : Byte := bs.getD i 0

/-- The 16-bit field whose high byte is byte `i`. -/
def halfAt (bs : List Byte) (i : Nat) : Half := byteAt bs i ++ byteAt bs (i + 1)

/-- One bit of the check register: generator 1021h (R20). -/
def checkShift (r : Half) : Half :=
  if r.msb then (r <<< 1) ^^^ 0x1021 else r <<< 1

/-- The check register after one byte, most significant bit first (R20). -/
def checkByte (r : Half) (b : Byte) : Half :=
  let x := r ^^^ (b ++ (0 : Byte))
  checkShift (checkShift (checkShift (checkShift (checkShift (checkShift (checkShift (checkShift x)))))))

/-- The check of R20 over some bytes: the register is preset to FFFFh and not inverted at the end. -/
def checkOf (bs : List Byte) : Half := bs.foldl checkByte 0xFFFF

/-- The high byte of a 16-bit value. -/
def highByte (h : Half) : Byte := h.extractLsb' 8 8

/-- The low byte of a 16-bit value. -/
def lowByte (h : Half) : Byte := h.extractLsb' 0 8

/-- A 16-bit value as two bytes, high byte first. -/
def halfBytes (h : Half) : List Byte := [highByte h, lowByte h]

/-- The bitwise exclusive-OR of some bytes (R12). -/
def xorBytes (bs : List Byte) : Byte := bs.foldl (· ^^^ ·) 0

/-- The number of bits set in a byte. -/
def countOnes (b : Byte) : Nat :=
  b[0].toNat + b[1].toNat + b[2].toNat + b[3].toNat + b[4].toNat + b[5].toNat + b[6].toNat + b[7].toNat

/-- The byte at position `n` of a carrier frame, by the layout of R3. -/
def frameByte (f : Frame) (n : Nat) : Byte :=
  if n < 4 then f.word.toList.getD n 0
  else if n = 4 then f.phase
  else if n < 9 then f.mgmt.toList.getD (n - 5) 0
  else if n < 64 then f.carried.getD (n - 9) 0
  else if n < 448 then
    let sl := f.slots[(⟨(n - 64) / 3 % 128, Nat.mod_lt _ (by decide)⟩ : Slot)]
    if (n - 64) % 3 = 0 then sl.tag else if (n - 64) % 3 = 1 then sl.parity else sl.condition
  else
    let sl := f.slots[(⟨(n - 448) % 128, Nat.mod_lt _ (by decide)⟩ : Slot)]
    sl.payload.getD ((n - 448) / 128) 0

/-- The carrier frame that an output frame is: its word is the alignment word in both timing sources (R5). Its management
positions not reached yet read as 00h (DESIGN CHOICE, log entry 3). -/
def carrierFrame (f : OutFrame) : Frame :=
  { word := Config.alignmentWord, phase := f.phase.setWidth 8, mgmt := vectorOf fun k : Fin 4 => byteAt f.placed k.val
    carried := f.carried, slots := f.slots }

/-- What an output carries `n` byte times after the start of its frame: byte `n` of the frame while it is sent, then 00h
until its next frame starts, and 00h before its first (R5, R14). -/
def outputByte (o : Output) (n : Nat) : Byte :=
  match o.frame with
  | none => 0
  | some f => if n < f.cut.getD Config.frameBytes then frameByte (carrierFrame f) n else 0

/-- Forward defect: bit 0 of a condition byte (R4). -/
def forwardDefect (condition : Byte) : Bool := condition[0]

/-- Protect active: bit 1 of a condition byte (R4). -/
def protectActive (condition : Byte) : Bool := condition[1]

end Sys2Proof.Machine
end

