-- ==== Sys2Proof/Machine/Operands.lean ====
section
/-! DEFINITION. Reading the parameters of commands (R164) and the fields of trail tags (R19). -/

namespace Sys2Proof.Machine

/-! ## Tag fields -/

/-- The identity of a tag (R19). -/
def tagIdentity (t : List Byte) : Identity :=
  { node := halfAt t 1, port := byteAt t 3, trail := halfAt t 4 }

/-- The route record of a tag: the nodes in positions 0 to count less 1 (R19). -/
def tagRoute (t : List Byte) : List Half :=
  (List.range (byteAt t 16).toNat).map fun i => halfAt t (18 + 2 * i)

/-- The persistent fields of a tag (R26). -/
def persistentFields (t : List Byte) : HeldTag :=
  { identity := tagIdentity t, epoch := halfAt t 6, windowFlag := (byteAt t 8)[0], overflow := (byteAt t 17)[0],
    route := tagRoute t }

/-- The echo hold of a tag, bytes 13 to 15 (R19). -/
def tagEchoHold (t : List Byte) : Nat :=
  (byteAt t 13).toNat * 65536 + (byteAt t 14).toNat * 256 + (byteAt t 15).toNat

/-- The probe and echo fields of a tag with its cycle-start stamp (R30). -/
def echoHandoffOf (t : List Byte) (stamp : Stamp) : EchoHandoff :=
  { probeNumber := byteAt t 9, probeAge := (byteAt t 10).toNat, echoNumber := byteAt t 11,
    echoAge := (byteAt t 12).toNat, echoHold := tagEchoHold t, cycleStart := stamp }

/-- The tag of a slot whose assembly is complete (R21). -/
def assembledTag (a : Vector (Option Byte) 32) : Option (List Byte) :=
  a.toList.foldr (fun o acc => match o, acc with
    | some b, some bs => some (b :: bs)
    | _, _ => none) (some [])

/-- The check of a tag is correct when bytes 30 and 31 equal the check over bytes 0 to 29 (R20). -/
def tagCheckCorrect (t : List Byte) : Bool := halfAt t 30 == checkOf (t.take 30)

/-! ## Command parameters -/

/-- A slot parameter: above 127 it names no slot (R164). -/
def slotOf (b : Byte) : Option Slot :=
  if h : b.toNat < 128 then some ⟨b.toNat, h⟩ else none

/-- A yes/no parameter: no when 00h, yes otherwise (R164). -/
def yesNo (b : Byte) : Bool := b != 0

def rxRoleOf (b : Byte) : Option RxRole :=
  if b = 0 then some .monitor else if b = 1 then some .terminate else none

def txRoleOf (b : Byte) : Option TxRole :=
  if b = 0 then some .carry else if b = 1 then some .stamp else if b = 2 then some .originate else none

def routeCheckOf (b : Byte) : Option RouteCheck :=
  if b = 0 then some .none else if b = 1 then some .exact else none

def hopConditionOf (b : Byte) : Option HopCondition :=
  if b = 0 then some .always else if b = 1 then some .workingOnly else if b = 2 then some .protectOnly else none

def sideOf (b : Byte) : Option Side :=
  if b = 0 then some .line else if b = 1 then some .drop else none

/-- A class code that the severity table may hold: 01h, 02h or 03h (R175). -/
def severityOf (b : Byte) : Option Severity :=
  if b = 1 then some .minor else if b = 2 then some .major else if b = 3 then some .critical else none

/-- An identity of five bytes: node, port and trail (R170). -/
def identityAt (p : List Byte) (i : Nat) : Identity :=
  { node := halfAt p i, port := byteAt p (i + 2), trail := halfAt p (i + 3) }

/-- The match mode of a LOAD MAP ENTRY request with the fields its mode reads (R52, R170). -/
def matchModeOf (p : List Byte) : Option MatchMode :=
  if byteAt p 2 = 0 then some (.masked (identityAt p 8) (identityAt p 13))
  else if byteAt p 2 = 1 then
    some (.listed (identityAt p 8) (if yesNo (byteAt p 7) then some (identityAt p 13) else none))
  else none

/-- The fixed delay of a LOAD MAP ENTRY request, clamped to 16,777,215 (R52, R170). -/
def fixedDelayOf (p : List Byte) : Nat :=
  min Config.delayMax ((halfAt p 18).toNat * 65536 + (halfAt p 20).toNat)

/-- The delay mode of a LOAD MAP ENTRY request (R170). -/
def delayModeOf (p : List Byte) : Option DelayMode :=
  if byteAt p 4 = 0 then some .none
  else if byteAt p 4 = 1 then some .baseline
  else if byteAt p 4 = 2 then some (.fixed (fixedDelayOf p))
  else none

/-- A profile index, 0..7. -/
def profileIndexOf (b : Byte) : Option (Fin 8) :=
  if h : b.toNat < 8 then some ⟨b.toNat, h⟩ else none

/-- A node number a hop may name, 1..65534 (R58). -/
def nodeNumber (n : Half) : Bool := n != 0 && n != 65535

/-- The hops of a LINK ROUTE request, each of three bytes from byte 3 on (R172); none when one of them is outside its
set (R63). -/
def hopsOf (p : List Byte) : Nat → Option (List (Half × HopCondition))
  | 0 => some []
  | n + 1 =>
    match hopsOf p n, hopConditionOf (byteAt p (5 + 3 * n)) with
    | some hs, some c =>
      if nodeNumber (halfAt p (3 + 3 * n)) then some (hs ++ [(halfAt p (3 + 3 * n), c)]) else none
    | _, _ => none

/-- A value stored as the nearest bound of its range. -/
def clamp (lo hi n : Nat) : Nat := max lo (min hi n)

/-- The profile of a SET PROFILE request, each field clamped to its stored range (R55, R173). -/
def profileOfPayload (p : List Byte) : Profile :=
  { settleLimit := clamp 1 65535 (halfAt p 2).toNat
    soakLength := clamp 1 65535 (halfAt p 4).toNat
    erroredAllowance := (byteAt p 6).toNat
    minSamples := clamp 1 15 (byteAt p 7).toNat
    restartBudget := clamp 0 7 (byteAt p 8).toNat
    filterWeight := clamp 0 7 (byteAt p 9).toNat
    tolerance := clamp 0 32767 (halfAt p 10).toNat
    shiftPersistence := clamp 1 15 (byteAt p 12).toNat
    defectHold := clamp 1 65535 (halfAt p 13).toNat }

/-- The thirteen bytes of a profile as stored (R173). -/
def profileBytes (f : Profile) : List Byte :=
  beBytes 2 f.settleLimit ++ beBytes 2 f.soakLength ++ beBytes 1 f.erroredAllowance ++ beBytes 1 f.minSamples ++
  beBytes 1 f.restartBudget ++ beBytes 1 f.filterWeight ++ beBytes 2 f.tolerance ++ beBytes 1 f.shiftPersistence ++
  beBytes 2 f.defectHold

/-- Bits 1, 2 and 3 of an enables byte: MINOR, MAJOR and CRITICAL (R175). -/
def enablesOf (b : Byte) : PerSeverity := { minor := b[1], major := b[2], critical := b[3] }

/-- The severities of some class bytes; none when one of them names no class of R149. -/
def severitiesOf : List Byte → Option (List Severity)
  | [] => some []
  | b :: bs =>
    match severityOf b, severitiesOf bs with
    | some v, some vs => some (v :: vs)
    | _, _ => none

/-- The severity table of a SET REPORTING request, bytes 6 to 18 (R175). -/
def severityTableOf (p : List Byte) : Option (Vector Severity 13) :=
  match severitiesOf ((List.range 13).map fun i => byteAt p (6 + i)) with
  | some vs => if h : vs.length = 13 then some ⟨vs.toArray, by simpa using h⟩ else none
  | none => none

/-! ## Commands -/

/-- The command of a code (R164). -/
def commandOf (b : Byte) : Option Command :=
  match b.toNat with
  | 0x10 => some .setNodeIdentity
  | 0x11 => some .readStatus
  | 0x20 => some .openWindow
  | 0x21 => some .closeWindow
  | 0x30 => some .setSlotRoles
  | 0x31 => some .loadMapEntry
  | 0x32 => some .clearMapEntry
  | 0x33 => some .linkRoute
  | 0x40 => some .setProfile
  | 0x41 => some .setProbing
  | 0x42 => some .setReporting
  | 0x50 => some .reverify
  | 0x60 => some .queryTrail
  | 0x61 => some .queryTag
  | 0x62 => some .queryRoute
  | 0x70 => some .clearDetected
  | 0x7F => some .restart
  | _ => none

/-- Whether the payload has the length of its command, code included (R164). -/
def lengthRight (c : Command) (p : List Byte) : Bool :=
  match c with
  | .setNodeIdentity => p.length == 3
  | .readStatus => p.length == 1
  | .openWindow => p.length == 3
  | .closeWindow => p.length == 5
  | .setSlotRoles => p.length == 7
  | .loadMapEntry => p.length == 22
  | .clearMapEntry => p.length == 2
  | .linkRoute => decide (3 ≤ p.length) && p.length == 3 + 3 * (byteAt p 2).toNat
  | .setProfile => p.length == 15
  | .setProbing => p.length == 3
  | .setReporting => p.length == 19
  | .reverify => p.length == 2
  | .queryTrail => p.length == 2
  | .queryTag => p.length == 3
  | .queryRoute => p.length == 2
  | .clearDetected => p.length == 3
  | .restart => p.length == 1

/-- The items that a CLEAR DETECTED selects at one block: some of its selection bits is set (R180). -/
def clearSelects (p : List Byte) : Block → Bool
  | .reportUnit => (byteAt p 1)[0] || (byteAt p 1)[1] || (byteAt p 1)[2]
  | .managementUnit => (byteAt p 1)[3] || (byteAt p 1)[4] || (byteAt p 1)[5]
  | .probeEngine => (byteAt p 1)[6] || (byteAt p 1)[7] || (byteAt p 2)[0]
  | _ => false

/-- The blocks that a request is sent to beside its one owner: each block of a status read (R166), each block with a
selected item (R180). -/
def blocksOf (c : Command) (p : List Byte) : List Block :=
  match c with
  | .readStatus =>
    [.managementUnit, .lineReceiver, .dropReceiver, .lineTransmitter, .dropTransmitter, .reportUnit, .probeEngine,
      .routePool, .timebase]
  | .clearDetected => [Block.reportUnit, .managementUnit, .probeEngine].filter (clearSelects p)
  | _ => []

end Sys2Proof.Machine
end

