-- ==== Sys2Proof/Machine/Channel.lean ====
section
/-! DEFINITION. The management channel (R152 to R163): reception, the address filter, the buffers and the arbiters. -/

namespace Sys2Proof.Machine

/-! ## Reception -/

/-- A channel receiver takes one delivered byte (R153). -/
def channelByte (c : Channel) (b : Byte) : Channel :=
  match c.taken with
  | none => if b = Config.frameStart then { c with taken := some [b] } else c
  | some bs =>
    let all := bs ++ [b]
    if all.length < 8 then { c with taken := some all }
    else if (byteAt all 7).toNat > Config.maxPayload then { c with taken := none }
    else if all.length = 10 + (byteAt all 7).toNat then { taken := none, completed := c.completed ++ [all] }
    else { c with taken := some all }

/-- A channel receiver takes the management bytes of a delivered frame, in order (R153). -/
def channelBytes (c : Channel) (bs : List Byte) : Channel := bs.foldl channelByte c

/-- A frame being collected is abandoned, without any count, when the receiver leaves LOCKED (R154). -/
def abandonFrame (c : Channel) : Channel := { c with taken := none }

/-- The payload length of a frame (R152). -/
def frameLength (bs : List Byte) : Nat := (byteAt bs 7).toNat

/-- A frame is good when the check over bytes 1 to 7+L equals bytes 8+L and 9+L (R154). -/
def frameGood (bs : List Byte) : Bool :=
  checkOf ((bs.drop 1).take (7 + frameLength bs)) == halfAt bs (8 + frameLength bs)

/-- The payload of a frame (R152). -/
def framePayload (bs : List Byte) : List Byte := (bs.drop 8).take (frameLength bs)

/-- The kind byte COMMAND (R152). -/
def kindCommand : Byte := 0x01

/-- A frame built from its fields with its check (R152). -/
def buildFrame (destination source : Half) (kind sequence : Byte) (payload : List Byte) : List Byte :=
  let body := halfBytes destination ++ halfBytes source ++ [kind, sequence, BitVec.ofNat 8 payload.length] ++ payload
  [Config.frameStart] ++ body ++ halfBytes (checkOf body)

/-! ## The address filter -/

/-- The treatments of a good frame (R156). -/
inductive Treatment where
  | discarded
  | obeyed
  | forwarded
  deriving DecidableEq, Repr

/-- The treatment of a good frame by its destination, kind and side (R156). -/
def treatmentOf (identity : Option Half) (side : Side) (destination : Half) (kind : Byte) : Treatment :=
  if destination = Config.localAddress then
    if side = .drop ∧ kind = kindCommand then .obeyed else .discarded
  else if identity = some destination then
    if kind = kindCommand then .obeyed else .discarded
  else .forwarded

/-- A frame to forward reaches the buffer of an output (R157). -/
def forwardFrame (m : ManagementUnit) (output : Side) (bs : List Byte) : ManagementUnit :=
  match m.forward.get output with
  | .free => { m with forward := m.forward.set output (.holding bs) }
  | .holding _ => { m with forwardDiscards := satInc Config.countMax m.forwardDiscards }
  | .sending => { m with forwardDiscards := satInc Config.countMax m.forwardDiscards }

/-! ## Replies -/

/-- The outcomes of a command (R159). -/
inductive ReplyOutcome where
  | done
  | state
  | value
  | pool
  | identity
  | unknown
  | malformed
  deriving DecidableEq, Repr

/-- Outcome codes (R159). -/
def outcomeCode : ReplyOutcome → Byte
  | .done => 0x00
  | .state => 0x01
  | .value => 0x02
  | .pool => 0x03
  | .identity => 0x04
  | .unknown => 0x05
  | .malformed => 0x06

/-- The reply frame: source the node identity as it stands, or 65535 while unset; payload the command code as
received, or 00h without one, then the outcome and its data (R159). -/
def replyFrame (identity : Option Half) (destination : Half) (sequence : Byte) (command : List Byte)
    (outcome : ReplyOutcome) (data : List Byte) : List Byte :=
  buildFrame destination (identity.getD Config.localAddress) 0x02 sequence
    ([byteAt command 0, outcomeCode outcome] ++ data)

/-- The reply to a request enters its side's buffer, unless a restart has discarded its outcome (R158, R182). -/
def placeReply (m : ManagementUnit) (r : Request) (outcome : ReplyOutcome) (data : List Byte) (isRestart : Bool) :
    ManagementUnit :=
  if r.live then
    let frame := replyFrame m.identity r.source r.sequence r.payload outcome data
    { m with reply := m.reply.set r.side (.holding frame isRestart) }
  else m

/-- The request of an obeyed frame. -/
def requestOf (side : Side) (c : Command) (bs : List Byte) : Request :=
  { side := side, command := c, source := halfAt bs 3, sequence := byteAt bs 6, payload := framePayload bs
    todo := blocksOf c (framePayload bs), data := [], live := true }

/-- The interpreter's own answer to a frame whose code or length is wrong (R158, R164). -/
def answerAtOnce (m : ManagementUnit) (side : Side) (bs : List Byte) (outcome : ReplyOutcome) : ManagementUnit :=
  let frame := replyFrame m.identity (halfAt bs 3) (byteAt bs 6) (framePayload bs) outcome []
  { m with reply := m.reply.set side (.holding frame false) }

/-- The interpreter reads the code and the length of an obeyed command and sends its request (R158, R164). -/
def interpret (m : ManagementUnit) (side : Side) (bs : List Byte) : ManagementUnit :=
  if (framePayload bs).length = 0 then answerAtOnce m side bs .malformed
  else match commandOf (byteAt (framePayload bs) 0) with
    | none => answerAtOnce m side bs .unknown
    | some c =>
      if lengthRight c (framePayload bs) then
        { m with reply := m.reply.set side .reserved
                 requests := m.requests ++ [requestOf side c bs] }
      else answerAtOnce m side bs .malformed

/-- A command that the filter obeys is judged against its side's reply buffer (R158). -/
def obeyFrame (m : ManagementUnit) (side : Side) (bs : List Byte) : ManagementUnit :=
  match m.reply.get side with
  | .free => interpret m side bs
  | .reserved => { m with commandDiscards := satInc Config.countMax m.commandDiscards }
  | .holding _ _ => { m with commandDiscards := satInc Config.countMax m.commandDiscards }
  | .sending _ => { m with commandDiscards := satInc Config.countMax m.commandDiscards }

/-- The address filter takes a good frame (R156). -/
def filterFrame (m : ManagementUnit) (side : Side) (bs : List Byte) : ManagementUnit :=
  match treatmentOf m.identity side (halfAt bs 1) (byteAt bs 5) with
  | .discarded => m
  | .obeyed => obeyFrame m side bs
  | .forwarded => forwardFrame m (opposite side) bs

/-- A completed frame is judged by its check (R154). -/
def judgeFrame (m : ManagementUnit) (side : Side) (bs : List Byte) : ManagementUnit :=
  if frameGood bs then filterFrame m side bs
  else { m with checkErrors := satInc Config.countMax m.checkErrors }

/-! ## Arbiters -/

/-- The management byte positions of an output frame that it has yet to reach; a frame cut off has none (R160). -/
def positionsLeft (f : OutFrame) : Nat := if f.cut.isSome then 0 else 4 - f.placed.length

/-- The management byte positions left on an output. -/
def outputPositions (o : Output) : Nat :=
  match o.frame with
  | none => 0
  | some f => positionsLeft f

/-- How many bytes an output frame has sent at least: past its placed management bytes, and past its tag bytes once its tag
cycle has been recorded as complete (R37, R160). -/
def sentAtLeast (f : OutFrame) : Nat :=
  max (if f.placed = [] then 0 else 5 + f.placed.length) (if f.tagsSent then Config.tagBytesEnd else 0)

/-- How many bytes an output frame has sent when an operand says `sent` (log entry 3). -/
def sentBy (f : OutFrame) (sent : Nat) : Nat := max sent (sentAtLeast f)

/-- How many bytes an output has sent of its frame when an operand says `sent`. -/
def outputSentBy (o : Output) (sent : Nat) : Nat :=
  match o.frame with
  | none => sent
  | some f => sentBy f sent

/-- The positions, of bytes 5 to 8, that an output frame goes on to reach until `sent` of its bytes have been sent
(R160). -/
def positionsBy (f : OutFrame) (sent : Nat) : Nat :=
  if f.cut.isSome then 0 else min 4 (sentBy f sent - 5) - f.placed.length

/-- The positions that an output's frame goes on to reach until `sent` of its bytes have been sent. -/
def outputPositionsBy (o : Output) (sent : Nat) : Nat :=
  match o.frame with
  | none => 0
  | some f => positionsBy f sent

/-- The bytes still to place of an arbiter's frame; none when it is idle. -/
def bytesLeft (a : Option Sending) : List Byte :=
  match a with
  | none => []
  | some x => x.rest

/-- What an arbiter places in the next `n` positions: the next bytes of its frame, and 00h when it has none (R160). -/
def positionBytes (a : Option Sending) (n : Nat) : List Byte :=
  (bytesLeft a).take n ++ List.replicate (n - (bytesLeft a).length) 0

/-- An arbiter after its next `n` positions (R160). -/
def arbiterAfter (a : Option Sending) (n : Nat) : Option Sending := a.map fun x => { x with rest := x.rest.drop n }

/-- Puts bytes into the next management byte positions of the output's frame. -/
def placeBytes (o : Output) (bs : List Byte) : Output :=
  { o with frame := o.frame.map fun f => { f with placed := f.placed ++ bs } }

/-- An output reaches the next `n` management byte positions of its frame (R160). -/
def reachPositions (s : State) (output : Side) (n : Nat) : State :=
  { s with
    output := s.output.set output
      (placeBytes (s.output.get output) (positionBytes (s.management.arbiter.get output) n))
    management := { s.management with
      arbiter := s.management.arbiter.set output (arbiterAfter (s.management.arbiter.get output) n) } }

/-- An output frame that ends when `sent` of its bytes have been sent: the positions reached have their bytes, and it is
cut off unless it was sent whole (R14, R16, R160). -/
def endFrame (a : Option Sending) (sent : Nat) (f : OutFrame) : OutFrame :=
  let g := { f with placed := f.placed ++ positionBytes a (positionsBy f sent) }
  if f.cut.isSome ∨ Config.frameBytes ≤ sent then g else { g with cut := some (sentBy f sent) }

/-- The arbiter of an output whose frame ends when `sent` of its bytes have been sent: a position not reached takes no byte,
and the arbiter's frame goes on in the next output frame (R160). -/
def arbiterAtEnd (s : State) (output : Side) (sent : Nat) : Option Sending :=
  arbiterAfter (s.management.arbiter.get output) (outputPositionsBy (s.output.get output) sent)

/-- An idle arbiter starts a frame after `skip` idle positions, which carry 00h: byte 0 is in the position after them
(R160). -/
def startSending (s : State) (output : Side) (skip : Nat) (source : FrameSource) (bs : List Byte) : State :=
  { s with
    output := s.output.set output (placeBytes (s.output.get output) (List.replicate skip 0 ++ bs.take 1))
    management := { s.management with
      arbiter := s.management.arbiter.set output (some { source := source, rest := bs.drop 1 }) } }

/-- Whether an output's arbiter is idle and has a position left after `skip` idle ones (R160). -/
def canStart (s : State) (output : Side) (skip : Nat) : Bool :=
  (s.management.arbiter.get output).isNone && decide (skip < outputPositions (s.output.get output))

/-- The frame an arbiter is sending, when its last byte has been placed or has a position left in the output's frame. -/
def endingFrame (s : State) (output : Side) : Option Sending :=
  match s.management.arbiter.get output with
  | none => none
  | some a => if a.rest.length ≤ outputPositions (s.output.get output) then some a else none

/-- The last byte of the frame is placed, with those before it, and the arbiter becomes idle (R160). -/
def placeLast (s : State) (output : Side) (a : Sending) : State :=
  let reached := reachPositions s output a.rest.length
  { reached with management := { reached.management with arbiter := s.management.arbiter.set output none } }

end Sys2Proof.Machine
end

