-- ==== Sys2Proof/Machine/Delay.lean ====
section
/-! DEFINITION. Delay arithmetic (R125 to R137): samples, the filter, references, shifts and reported values. -/

namespace Sys2Proof.Machine

/-- `n / d` rounded to nearest, exact halves going to the even integer (R131, R136). -/
def roundHalfEven (n : Int) (d : Nat) : Int :=
  let q := n / (d : Int)
  let r := n % (d : Int)
  if 2 * r < d then q
  else if 2 * r > d then q + 1
  else if q % 2 = 0 then q else q + 1

/-- The stamp moved back by `age` tag cycles (R120, R126). -/
def ageCorrected (r : Stamp) (age : Nat) : Stamp := r - BitVec.ofNat 32 (age * Config.periodTicks)

/-- The sample: (R - a * 16,384 - T - H) modulo 2^32 (R126). -/
def sampleOf (launch received : Stamp) (age hold : Nat) : Nat :=
  (ageCorrected received age - launch - BitVec.ofNat 32 hold).toNat

/-- A sample below 2^20 ticks is accepted (R127). -/
def sampleAccepted (sample : Nat) : Bool := decide (sample < Config.sampleLimit)

/-- The step of the filter: the distance to the target divided by 2^k, rounded (R130, R131). -/
def filterStep (average sample weight : Nat) : Int :=
  roundHalfEven (16 * (sample : Int) - (average : Int)) (2 ^ weight)

/-- The average after an accepted sample (R129, R130). -/
def averageAfter (average : Option Nat) (sample weight : Nat) : Nat :=
  match average with
  | none => 16 * sample
  | some a => ((a : Int) + filterStep a sample weight).toNat

/-- An accepted sample enters a slot's filter (R128 to R130). -/
def filterSample (p : SlotProbe) (sample weight : Nat) : SlotProbe :=
  { p with average := some (averageAfter p.average sample weight)
           sampleCount := satInc Config.countMax p.sampleCount }

/-- The baseline of one protect side (R51). -/
def baselineOf (m : SlotMap) : Protect → Option Nat
  | .working => m.workingBaseline
  | .protect => m.protectBaseline

/-- Writes the baseline of one protect side and leaves the other (R51). -/
def writeBaseline (m : SlotMap) (side : Protect) (value : Nat) : SlotMap :=
  match side with
  | .working => { m with workingBaseline := some value }
  | .protect => { m with protectBaseline := some value }

/-- The reference of a slot for a held protect state (R133). -/
def referenceOf (m : SlotMap) (side : Protect) : Option Nat :=
  match m.entry with
  | none => none
  | some e =>
    match e.delay with
    | .none => none
    | .fixed d => some d
    | .baseline => baselineOf m side

/-- The internal shift: average less reference, when both are present (R134). -/
def internalShift (average reference : Option Nat) : Option Int :=
  match average, reference with
  | some a, some r => some ((a : Int) - (r : Int))
  | _, _ => none

/-- The tolerance test fails when the magnitude exceeds the tolerance (R134). -/
def shiftFails (shift : Int) (tolerance : Nat) : Bool := decide (shift.natAbs > tolerance)

/-- The reported shift with its saturated flag (R135). -/
def reportedShift (shift : Int) : Int × Bool :=
  if shift > 32767 then (32767, true)
  else if shift < -32768 then (-32768, true)
  else (shift, false)

/-- The one-way delay in units of 0.1 microseconds (R136). -/
def oneWayDelay (average : Nat) : Nat := (roundHalfEven ((average : Int) * 125) 2048).toNat

/-- The reported shift and flag of a slot for a held protect state, when present (R137). -/
def slotShift (m : SlotMap) (p : SlotProbe) (side : Protect) : Option (Int × Bool) :=
  (internalShift p.average (referenceOf m side)).map reportedShift

end Sys2Proof.Machine
end

