-- ==== Sys2Proof/Machine/Flags.lean ====
section
/-! DEFINITION. Codes, detected flags and ALERT: the encodings of states, causes and classes, and the flag updates of
the report unit. -/

namespace Sys2Proof.Machine

/-! ## Codes -/

/-- Cause codes (R139). -/
def causeCode : Cause → Nat
  | .noTag => 0x01
  | .defect => 0x02
  | .farWindow => 0x03
  | .staleEpoch => 0x04
  | .misconnected => 0x05
  | .routeMismatch => 0x06
  | .errors => 0x07
  | .unstable => 0x08
  | .noDelay => 0x09
  | .delayShift => 0x0A
  | .restartDefect => 0x0B
  | .restartFarWindow => 0x0C
  | .restartProtect => 0x0D

/-- The cause's place in the severity table, its code less 1 (R139). -/
def causeIndex : Cause → Fin 13
  | .noTag => 0
  | .defect => 1
  | .farWindow => 2
  | .staleEpoch => 3
  | .misconnected => 4
  | .routeMismatch => 5
  | .errors => 6
  | .unstable => 7
  | .noDelay => 8
  | .delayShift => 9
  | .restartDefect => 10
  | .restartFarWindow => 11
  | .restartProtect => 12

/-- The failure cause that a wait reason becomes at the settle limit (R82). -/
def waitCause : WaitReason → Cause
  | .noTag => .noTag
  | .defect => .defect
  | .farWindow => .farWindow
  | .staleEpoch => .staleEpoch

/-- Kind codes of a finding (R142). -/
def kindCode : FindingKind → Nat
  | .verified => 1
  | .failed => 2
  | .restarted => 3

/-- Class codes (R142, R164). -/
def classCode : FindingClass → Nat
  | .info => 0
  | .minor => 1
  | .major => 2
  | .critical => 3

/-- Match result codes (R142). -/
def matchCode : MatchResult → Nat
  | .noMatch => 0
  | .matched => 1
  | .matchedA => 2
  | .matchedB => 3

/-- State codes (R177). -/
def stateCode : CheckState → Nat
  | .idle => 0
  | .window => 1
  | .settling => 2
  | .soaking => 3
  | .verified => 4
  | .failed => 5

/-- Tag fault codes (R177). -/
def faultCode : TagFault → Nat
  | .slip => 1
  | .incomplete => 2
  | .checkError => 3
  | .foreign => 4
  | .malformed => 5

/-- Transmit role codes (R164). -/
def txRoleCode : TxRole → Nat
  | .carry => 0
  | .stamp => 1
  | .originate => 2

/-- Hop condition codes (R164). -/
def hopConditionCode : HopCondition → Nat
  | .always => 0
  | .workingOnly => 1
  | .protectOnly => 2

/-- Source codes of a last emitted tag (R178). -/
def tagSourceCode : TagSource → Nat
  | .originated => 0
  | .stamped => 1
  | .carried => 2
  | .idle => 3

/-- Alignment state codes (R166). -/
def alignCode : Align → Nat
  | .hunt => 0
  | .confirm _ _ => 1
  | .locked => 2

/-! ## Detected flags and ALERT -/

/-- The class of a severity. -/
def severityClass : Severity → FindingClass
  | .minor => .minor
  | .major => .major
  | .critical => .critical

/-- The class of a finding: INFO without a cause, else the class its cause maps to now (R140). -/
def classOf (table : Vector Severity 13) : Option Cause → FindingClass
  | none => .info
  | some c => severityClass table[causeIndex c]

/-- The detected flags after a finding of a class; INFO sets none (R143). -/
def seenAfter (seen : PerSeverity) : FindingClass → PerSeverity
  | .info => seen
  | .minor => { seen with minor := true }
  | .major => { seen with major := true }
  | .critical => { seen with critical := true }

/-- The report enable of a class (R149). -/
def reportEnabled (r : ReportSettings) : FindingClass → Bool
  | .info => r.reportInfo
  | .minor => r.report.minor
  | .major => r.report.major
  | .critical => r.report.critical

/-- The level of ALERT: some detected flag is set whose alert enable is on (R144). -/
def alertLevel (seen enable : PerSeverity) : Bool :=
  (seen.minor && enable.minor) || (seen.major && enable.major) || (seen.critical && enable.critical)

/-- The report unit with ALERT following its flags and enables (R144). -/
def refreshAlert (r : ReportUnit) : ReportUnit :=
  { r with alert := alertLevel r.seen r.settings.alertEnable }

/-- The detected flags marked no are kept, those marked yes are cleared (R150). -/
def clearSeen (seen marked : PerSeverity) : PerSeverity :=
  { minor := seen.minor && !marked.minor, major := seen.major && !marked.major,
    critical := seen.critical && !marked.critical }

end Sys2Proof.Machine
end

