-- ==== Sys2Proof/Machine/Routes.lean ====
section
/-! DEFINITION. The route pool and expected routes (R58 to R71), and matching a held tag against a map entry
(R45 to R47). The free list is `State.freeHops`, its head first; a slot's list is `SlotMap.route`. The next field of an
entry is the index that follows it in its list, or end. -/

namespace Sys2Proof.Machine

/-- The free count of the route pool (R59). -/
def freeCount (s : State) : Nat := s.freeHops.length

/-- The free head, or none (R59). -/
def freeHead (s : State) : Option (Fin 256) := s.freeHops.head?

/-- The next field of an entry within a list of indexes: the index that follows it, or end (R58). -/
def nextField (list : List (Fin 256)) (index : Fin 256) : Option (Fin 256) :=
  match list with
  | [] => none
  | i :: rest => if i = index then rest.head? else nextField rest index

/-- A route list freed onto the free list: its entries are pushed one at a time in list order (R61). -/
def pushHops (free : List (Fin 256)) (route : List Hop) : List (Fin 256) :=
  route.foldl (fun acc h => h.index :: acc) free

/-- Pops one free entry for each hop of a request, first popped first (R62). -/
def popHops : List (Fin 256) → List (Half × HopCondition) → List Hop
  | i :: free, (n, c) :: hops => { index := i, node := n, condition := c } :: popHops free hops
  | _, _ => []

/-- Whether a hop is kept for a held protect state (R68). -/
def hopFits : HopCondition → Protect → Bool
  | .always, _ => true
  | .workingOnly, p => p == .working
  | .protectOnly, p => p == .protect

/-- The expected route for a held protect state (R68). -/
def expectedRoute (route : List Hop) (p : Protect) : List Half :=
  (route.filter fun h => hopFits h.condition p).map Hop.node

/-- The route match of a LOADED entry (R69). -/
def routeMatches (e : MapEntry) (route : List Hop) (held : HeldTag) (p : Protect) : Bool :=
  match e.routeCheck with
  | .none => true
  | .exact => !held.overflow && held.route == expectedRoute route p

/-- A field agrees under its mask (R45). -/
def maskedEqual {n : Nat} (received expected mask : BitVec n) : Bool := received &&& mask == expected &&& mask

/-- The match result of a held identity (R45, R46). -/
def matchResult (e : MapEntry) (held : Identity) : MatchResult :=
  match e.mode with
  | .masked x m =>
    if maskedEqual held.node x.node m.node && maskedEqual held.port x.port m.port &&
        maskedEqual held.trail x.trail m.trail then .matched
    else .noMatch
  | .listed a b =>
    if a = held then .matchedA
    else if b = some held then .matchedB
    else .noMatch

end Sys2Proof.Machine
end

