-- ==== Sys2Proof/Machine/Checks.lean ====
section
/-! DEFINITION. The verification engine (R72 to R103): what a context does with each event. -/

namespace Sys2Proof.Machine

/-- What a context reads from other blocks beside its own slot: the check profiles, the period clock and whether the
line receiver is in LOCKED. -/
structure CheckInputs where
  profiles : Vector Profile 8
  clock : BitVec 32
  lineLocked : Bool
  deriving DecidableEq, Repr

/-- The inputs as they stand. -/
def checkInputs (s : State) : CheckInputs :=
  { profiles := s.profiles, clock := s.timebase.periodClock, lineLocked := s.receiver.line.align == .locked }

/-- The profile that a slot's map entry names (R56). A slot whose entry is EMPTY is never in a state in which a profile
is read (R73); the defaults stand for it there. -/
def slotProfile (inp : CheckInputs) (m : SlotMap) : Profile :=
  match m.entry with
  | some e => inp.profiles[e.profile]
  | none => .defaults

/-! ## Findings -/

/-- The snapshot of a slot's check (R96, R137). -/
def snapshot (inp : CheckInputs) (i : Slot) (sl : SlotState) (kind : FindingKind) (cause : Option Cause)
    (baselineSet : Bool) : Finding :=
  { slot := i, kind := kind, cause := cause, epoch := sl.map.expectedEpoch, clock := inp.clock
    identity := sl.tag.held.map HeldTag.identity
    result := sl.map.entry.bind fun e => sl.tag.held.map fun h => matchResult e h.identity
    erroredCount := sl.context.erroredCount, restartCount := sl.context.restartCount, baselineSet := baselineSet
    average := sl.probe.average, oneWay := sl.probe.average.map oneWayDelay
    shift := slotShift sl.map sl.probe sl.tag.heldProtect }

/-- A finding handed to the report unit (R96). -/
def handFinding (sl : SlotState) (f : Finding) : SlotState :=
  { sl with inFlight := { sl.inFlight with findings := sl.inFlight.findings ++ [f] } }

/-- A withdraw request sent to the probe engine (R95). -/
def sendWithdraw (sl : SlotState) : SlotState :=
  { sl with inFlight := { sl.inFlight with withdraws := sl.inFlight.withdraws + 1 } }

/-- A filter reset request sent to the probe engine (R95). -/
def sendFilterReset (reason : FilterReset) (sl : SlotState) : SlotState :=
  { sl with inFlight := { sl.inFlight with filterResets := sl.inFlight.filterResets ++ [reason] } }

/-! ## Entering states -/

/-- Entry to SETTLING (R80). -/
def enterSettling (sl : SlotState) : SlotState :=
  sendWithdraw (sendFilterReset .settling
    { sl with context := { sl.context with
        state := .settling, waitReason := .noTag, settleTimer := 0, soakCount := 0, erroredCount := 0, strikes := 0,
        defectTimer := 0 } })

/-- Entry to SETTLING from CLOSE WINDOW, REVERIFY or RESTART, with restart count 0 (R80). -/
def enterSettlingAfresh (sl : SlotState) : SlotState :=
  enterSettling { sl with context := { sl.context with restartCount := 0 } }

/-- Entry to SOAKING (R83). -/
def enterSoaking (sl : SlotState) : SlotState :=
  { sl with context := { sl.context with state := .soaking, soakCount := 0, erroredCount := 0 } }

/-- Entry to FAILED (R94): the finding, the last cause, and a withdraw request from SOAKING or VERIFIED. -/
def enterFailed (inp : CheckInputs) (i : Slot) (cause : Cause) (sl : SlotState) : SlotState :=
  let told := handFinding sl (snapshot inp i sl .failed (some cause) false)
  let left := if sl.context.state = .soaking ∨ sl.context.state = .verified then sendWithdraw told else told
  { left with context := { left.context with state := .failed, lastCause := some cause } }

/-- Entry to VERIFIED (R89): the finding, then the counts set to 0. -/
def enterVerified (inp : CheckInputs) (i : Slot) (baselineSet : Bool) (sl : SlotState) : SlotState :=
  let told := handFinding sl (snapshot inp i sl .verified none baselineSet)
  { told with context := { told.context with state := .verified, strikes := 0, defectTimer := 0, restartCount := 0 } }

/-- A check restart (R85). -/
def checkRestart (inp : CheckInputs) (i : Slot) (cause : Cause) (sl : SlotState) : SlotState :=
  let counted := { sl with context := { sl.context with restartCount := sl.context.restartCount + 1 } }
  if counted.context.restartCount > (slotProfile inp sl.map).restartBudget then enterFailed inp i .unstable counted
  else
    let caused := { counted with context := { counted.context with lastCause := some cause } }
    enterSettling (handFinding caused (snapshot inp i caused .restarted (some cause) false))

/-! ## Cycle reports -/

/-- Whether a report counts as defect (R74). The line receiver is looked at when the report is taken. So a report made before
an alignment loss and taken after it counts as defect, as R74 says, also while the slot's STREAM_LOSS still waits; R99
calls a report taken before that event evaluated normally, which is read as by R74 (DEDUCED, log entry 24). -/
def reportIsDefect (inp : CheckInputs) (c : Context) (r : CycleReport) : Bool :=
  r.forwardDefectSeen || r.tagLoss || (r.held.isNone && c.lossMark) || !inp.lineLocked

/-- Whether a report is an errored cycle (R86). -/
def reportIsErrored (r : CycleReport) : Bool := r.result != .valid || decide (r.parityErrors > 0)

/-- The context once a report has been judged for defect, before its effect on the state (R74). -/
def afterDefectJudgement (inp : CheckInputs) (c : Context) (r : CycleReport) : Context :=
  { c with defectNow := reportIsDefect inp c r, lossMark := if inp.lineLocked then false else c.lossMark }

/-- Whether a held tag gives NO_MATCH against the slot's entry (R47). -/
def misconnected (m : SlotMap) (h : HeldTag) : Bool :=
  match m.entry with
  | some e => matchResult e h.identity == .noMatch
  | none => false

/-- Whether a held tag mismatches the slot's route for the protect state a report carries (R69, R70). -/
def routeWrong (m : SlotMap) (h : HeldTag) (p : Protect) : Bool :=
  match m.entry with
  | some e => !routeMatches e m.route h p
  | none => false

/-- Waiting in SETTLING for a reason (R81). -/
def waitFor (reason : WaitReason) (sl : SlotState) : SlotState :=
  { sl with context := { sl.context with waitReason := reason } }

/-- A report in SETTLING (R81). -/
def reportInSettling (inp : CheckInputs) (i : Slot) (defect : Bool) (r : CycleReport) (sl : SlotState) : SlotState :=
  if defect then waitFor .defect sl
  else match r.held with
    | none => waitFor .noTag sl
    | some h =>
      if misconnected sl.map h then enterFailed inp i .misconnected sl
      else if h.windowFlag then waitFor .farWindow sl
      else if h.epoch ≠ sl.map.expectedEpoch then waitFor .staleEpoch sl
      else if routeWrong sl.map h r.protect then enterFailed inp i .routeMismatch sl
      else enterSoaking sl

/-- The held tag of a report that carries held tag changed. -/
def changedTag (r : CycleReport) : Option HeldTag := if r.heldChanged then r.held else none

/-- An errored cycle in SOAKING (R84 row 7, R86). -/
def erroredInSoaking (inp : CheckInputs) (i : Slot) (sl : SlotState) : SlotState :=
  let counted :=
    { sl with context := { sl.context with erroredCount := satInc Config.countMax sl.context.erroredCount } }
  if counted.context.erroredCount > (slotProfile inp sl.map).erroredAllowance then
    enterFailed inp i .errors counted
  else counted

/-- Rows 6 and 7 of R84, and the report that none applies to. -/
def reportGoesOnSoaking (inp : CheckInputs) (i : Slot) (r : CycleReport) (sl : SlotState) : SlotState :=
  if r.protectChanged then checkRestart inp i .restartProtect sl
  else if reportIsErrored r then erroredInSoaking inp i sl
  else sl

/-- A report in SOAKING (R84). -/
def reportInSoaking (inp : CheckInputs) (i : Slot) (defect : Bool) (r : CycleReport) (sl : SlotState) : SlotState :=
  match changedTag r with
  | none =>
    if defect then checkRestart inp i .restartDefect sl else reportGoesOnSoaking inp i r sl
  | some h =>
    if misconnected sl.map h then enterFailed inp i .misconnected sl
    else if defect then checkRestart inp i .restartDefect sl
    else if h.windowFlag then checkRestart inp i .restartFarWindow sl
    else if h.epoch ≠ sl.map.expectedEpoch then enterFailed inp i .staleEpoch sl
    else if routeWrong sl.map h r.protect then enterFailed inp i .routeMismatch sl
    else reportGoesOnSoaking inp i r sl

/-- The protect-changed effect in VERIFIED (R91). -/
def protectChangedInVerified (sl : SlotState) : SlotState :=
  sendFilterReset .protectChanged { sl with context := { sl.context with strikes := 0 } }

/-- A report in VERIFIED that none of rows 1 to 4 of R90 applies to. `wasDefect` is defect now before the report. -/
def reportStaysVerified (wasDefect defect : Bool) (r : CycleReport) (sl : SlotState) : SlotState :=
  let switched := if r.protectChanged then protectChangedInVerified sl else sl
  { switched with context := { switched.context with
      defectTimer := if defect && wasDefect then switched.context.defectTimer else 0
      erroredCount := if reportIsErrored r then satInc Config.countMax switched.context.erroredCount
                      else switched.context.erroredCount } }

/-- A report in VERIFIED (R90). -/
def reportInVerified (inp : CheckInputs) (i : Slot) (wasDefect defect : Bool) (r : CycleReport) (sl : SlotState) :
    SlotState :=
  match changedTag r with
  | none => reportStaysVerified wasDefect defect r sl
  | some h =>
    if misconnected sl.map h then enterFailed inp i .misconnected sl
    else if h.windowFlag then checkRestart inp i .restartFarWindow sl
    else if h.epoch ≠ sl.map.expectedEpoch then enterFailed inp i .staleEpoch sl
    else if routeWrong sl.map h r.protect then enterFailed inp i .routeMismatch sl
    else reportStaysVerified wasDefect defect r sl

/-- A context takes a cycle report (R74, then R76, R81, R84, R90 or R94 by state). -/
def takeReport (inp : CheckInputs) (i : Slot) (r : CycleReport) (sl : SlotState) : SlotState :=
  let defect := reportIsDefect inp sl.context r
  let judged := { sl with context := afterDefectJudgement inp sl.context r }
  match sl.context.state with
  | .settling => reportInSettling inp i defect r judged
  | .soaking => reportInSoaking inp i defect r judged
  | .verified => reportInVerified inp i sl.context.defectNow defect r judged
  | .idle => judged
  | .window => judged
  | .failed => judged

/-! ## Stream loss -/

/-- A context takes stream loss (R75). -/
def takeStreamLoss (inp : CheckInputs) (i : Slot) (sl : SlotState) : SlotState :=
  let marked := { sl with context := { sl.context with lossMark := true, defectNow := true } }
  match sl.context.state with
  | .settling => waitFor .defect marked
  | .soaking => checkRestart inp i .restartDefect marked
  | .verified =>
    { marked with context := { marked.context with
        defectTimer := if sl.context.defectNow then sl.context.defectTimer else 0 } }
  | .idle => marked
  | .window => marked
  | .failed => marked

/-! ## Local period boundaries -/

/-- The decision at soak end (R88). -/
def decideSoakEnd (inp : CheckInputs) (i : Slot) (sl : SlotState) : SlotState :=
  let prof := slotProfile inp sl.map
  let mode := (sl.map.entry.map MapEntry.delay).getD .none
  let side := sl.tag.heldProtect
  if mode = .none then enterVerified inp i false sl
  else if sl.probe.sampleCount < prof.minSamples then enterFailed inp i .noDelay sl
  else match sl.probe.average, referenceOf sl.map side with
    | some a, none => enterVerified inp i true { sl with map := writeBaseline sl.map side a }
    | some a, some r =>
      if shiftFails ((a : Int) - (r : Int)) prof.tolerance then enterFailed inp i .delayShift sl
      else enterVerified inp i false sl
    | none, _ => enterVerified inp i false sl

/-- A boundary in SETTLING (R82). -/
def boundaryInSettling (inp : CheckInputs) (i : Slot) (sl : SlotState) : SlotState :=
  let counted := { sl with context := { sl.context with settleTimer := sl.context.settleTimer + 1 } }
  if counted.context.settleTimer ≥ (slotProfile inp sl.map).settleLimit then
    enterFailed inp i (waitCause sl.context.waitReason) counted
  else counted

/-- A boundary in SOAKING (R87). -/
def boundaryInSoaking (inp : CheckInputs) (i : Slot) (sl : SlotState) : SlotState :=
  let counted := { sl with context := { sl.context with soakCount := sl.context.soakCount + 1 } }
  if counted.context.soakCount ≥ (slotProfile inp sl.map).soakLength then decideSoakEnd inp i counted
  else counted

/-- A boundary in VERIFIED (R93). -/
def boundaryInVerified (inp : CheckInputs) (i : Slot) (sl : SlotState) : SlotState :=
  if sl.context.defectNow then
    let counted := { sl with context := { sl.context with defectTimer := sl.context.defectTimer + 1 } }
    if counted.context.defectTimer ≥ (slotProfile inp sl.map).defectHold then enterFailed inp i .defect counted
    else counted
  else sl

/-- A context takes a local period boundary (R76, R82, R87, R93, R94). -/
def takeBoundary (inp : CheckInputs) (i : Slot) (sl : SlotState) : SlotState :=
  match sl.context.state with
  | .settling => boundaryInSettling inp i sl
  | .soaking => boundaryInSoaking inp i sl
  | .verified => boundaryInVerified inp i sl
  | .idle => sl
  | .window => sl
  | .failed => sl

/-- Whether the next boundary brings the settle timer to the limit (R82). -/
def settleLimitAhead (inp : CheckInputs) (sl : SlotState) : Bool :=
  sl.context.state == .settling && decide (sl.context.settleTimer + 1 ≥ (slotProfile inp sl.map).settleLimit)

/-- Whether the next boundary ends the soak (R87). -/
def soakEndAhead (inp : CheckInputs) (sl : SlotState) : Bool :=
  sl.context.state == .soaking && decide (sl.context.soakCount + 1 ≥ (slotProfile inp sl.map).soakLength)

/-- Whether the next boundary brings the defect timer to the hold (R93). -/
def defectHoldAhead (inp : CheckInputs) (sl : SlotState) : Bool :=
  sl.context.state == .verified && sl.context.defectNow &&
    decide (sl.context.defectTimer + 1 ≥ (slotProfile inp sl.map).defectHold)

/-! ## Accepted samples -/

/-- A shift tested in VERIFIED (R92). -/
def strikeTest (inp : CheckInputs) (i : Slot) (shift : Int) (sl : SlotState) : SlotState :=
  let prof := slotProfile inp sl.map
  let counted := { sl with context := { sl.context with
    strikes := if shiftFails shift prof.tolerance then sl.context.strikes + 1 else 0 } }
  if counted.context.strikes ≥ prof.shiftPersistence then enterFailed inp i .delayShift counted else counted

/-- The average that a sample event reads: as it stands (R92), but after a protect-changed report the filter after the reset
that the report asked for, so none while that reset waits (R101; DEDUCED, log entry 23). -/
def sampleAverage (sl : SlotState) : Option Nat :=
  if sl.inFlight.filterResets.contains .protectChanged then none else sl.probe.average

/-- A missing baseline of the side that the tag receiver holds now is learned once there are enough samples (R51, R92). -/
def learnBaseline (inp : CheckInputs) (average : Nat) (sl : SlotState) : SlotState :=
  if (sl.map.entry.map MapEntry.delay) = some .baseline ∧
      sl.probe.sampleCount ≥ (slotProfile inp sl.map).minSamples then
    { sl with map := writeBaseline sl.map sl.tag.heldProtect average }
  else sl

/-- A context takes an accepted sample. The reference is that of the side that the tag receiver holds at this moment (R92,
R133), also after the cycle end that changed it while the protect-changed report waits; what R101 says of the old side then
holds of a sample taken before that cycle end alone (DEDUCED, log entry 23). -/
def takeSample (inp : CheckInputs) (i : Slot) (sl : SlotState) : SlotState :=
  match sl.context.state with
  | .verified =>
    match sampleAverage sl, referenceOf sl.map sl.tag.heldProtect with
    | none, _ => sl
    | some a, some r => strikeTest inp i ((a : Int) - (r : Int)) sl
    | some a, none => learnBaseline inp a sl
  | .idle => sl
  | .window => sl
  | .settling => sl
  | .soaking => sl
  | .failed => sl

/-! ## Windows, REVERIFY and restart -/

/-- The capture made when OPEN WINDOW takes a slot out of VERIFIED: the held side and the average of that moment, when
there are enough samples (R77). -/
def captureBaseline (inp : CheckInputs) (sl : SlotState) : List (Protect × Nat) :=
  match sl.probe.average with
  | some a =>
    if sl.probe.sampleCount ≥ (slotProfile inp sl.map).minSamples then [(sl.tag.heldProtect, a)] else []
  | none => []

/-- The slot in WINDOW, its context otherwise as it was (R76, R77). -/
def toWindow (sl : SlotState) : SlotState := { sl with context := { sl.context with state := .window } }

/-- OPEN WINDOW at a context (R77). -/
def openSlot (inp : CheckInputs) (sl : SlotState) : SlotState :=
  match sl.context.state with
  | .window => sl
  | .verified =>
    sendWithdraw (toWindow { sl with inFlight := { sl.inFlight with
      baselines := sl.inFlight.baselines ++ captureBaseline inp sl } })
  | .soaking => sendWithdraw (toWindow sl)
  | .idle => toWindow sl
  | .settling => toWindow sl
  | .failed => toWindow sl

/-- CLOSE WINDOW with an epoch at a context (R78). -/
def closeSlot (epoch : Half) (sl : SlotState) : SlotState :=
  if sl.context.state = .window then
    let closed :=
      { sl with map := { sl.map with originEpoch := epoch, expectedEpoch := epoch }
                context := { sl.context with lastCause := none } }
    if sl.map.rxRole = .terminate ∧ sl.map.entry.isSome then enterSettlingAfresh closed
    else { closed with context := { closed.context with state := .idle } }
  else sl

/-- Whether a slot is being checked: SETTLING, SOAKING, VERIFIED or FAILED (R73). -/
def beingChecked (c : CheckState) : Bool :=
  c == .settling || c == .soaking || c == .verified || c == .failed

/-- REVERIFY at a slot that is being checked (R94). -/
def reverifySlot (sl : SlotState) : SlotState :=
  enterSettlingAfresh { sl with context := { sl.context with lastCause := none } }

/-- The RESTART command at a context (R103). `stillQueued` says that the report unit holds a record for the slot that
the restart will not empty. -/
def restartSlot (stillQueued : Bool) (sl : SlotState) : SlotState :=
  let cleared := { sl with context := { sl.context with findingPending := stillQueued } }
  if beingChecked sl.context.state then enterSettlingAfresh cleared else cleared

end Sys2Proof.Machine
end

