-- ==== Sys2Proof/Machine/Probes.lean ====
section
/-! DEFINITION. The probe engine (R104 to R124): the probe table, the rotation, launches, echoes and the responder. -/

namespace Sys2Proof.Machine

/-! ## The probe table -/

/-- Replaces every entry of the probe table by a function of it. -/
def mapTable (t : Vector (Option ProbeEntry) 8) (f : ProbeEntry → Option ProbeEntry) :
    Vector (Option ProbeEntry) 8 :=
  vectorOf fun k : Fin 8 => t[k].bind f

/-- The entries in use, in index order. -/
def entriesOf (t : Vector (Option ProbeEntry) 8) : List ProbeEntry := t.toList.filterMap id

/-- The entry of a slot, if it has one (R104). -/
def entryOf (t : Vector (Option ProbeEntry) 8) (i : Slot) : Option ProbeEntry :=
  (entriesOf t).find? fun e => e.slot == i

/-- The table with a slot's entry freed. -/
def freeEntry (t : Vector (Option ProbeEntry) 8) (i : Slot) : Vector (Option ProbeEntry) 8 :=
  mapTable t fun e => if e.slot = i then none else some e

/-- The lowest free index (R104). -/
def lowestFree (t : Vector (Option ProbeEntry) 8) : Option (Fin 8) :=
  (List.finRange 8).find? fun k => t[k].isNone

/-- The number after a probe number: 255 is followed by 1 (R105). -/
def numberAfter (n : Byte) : Byte := if n = 255 then 1 else n + 1

/-! ## The rotation step -/

/-- Whether an entry measures delay (R50, R107). -/
def measuresDelay (m : SlotMap) : Bool :=
  match m.entry with
  | none => false
  | some e => e.delay != .none

/-- Whether a slot in the given state is wanting a probe (R107). -/
def wanting (s : State) (state : CheckState) (i : Slot) : Bool :=
  s.slots[i].context.state == state && measuresDelay s.slots[i].map && s.slots[i].map.txRole == .originate &&
    (entryOf s.probe.table i).isNone

/-- The order of the search: from the slot past the rotation index, upward with wrap-around (R108). -/
def searchOrder (index : Slot) : List Slot := (List.finRange 128).map fun k => index + 1 + k

/-- The slot that a rotation step arms: a soaking one first, else a verified one (R108). -/
def slotToArm (s : State) : Option Slot :=
  match (searchOrder s.probe.rotationIndex).find? (wanting s .soaking) with
  | some i => some i
  | none => (searchOrder s.probe.rotationIndex).find? (wanting s .verified)

/-- Arming a slot at a free index (R108). -/
def armSlot (s : State) (index : Fin 8) (i : Slot) : State :=
  let entry : ProbeEntry :=
    { slot := i, number := s.slots[i].probe.nextNumber, launch := none, remaining := s.probe.timeout }
  { s.modSlot i (fun sl => { sl with probe := { sl.probe with nextNumber := numberAfter sl.probe.nextNumber } }) with
    probe := { s.probe with table := s.probe.table.set index (some entry), rotationIndex := i } }

/-- A rotation step (R108). -/
def rotationStep (s : State) : State :=
  match lowestFree s.probe.table with
  | none => s
  | some index =>
    match slotToArm s with
    | none => s
    | some i => armSlot s index i

/-! ## Local period boundaries -/

/-- The entries that time out at the next boundary (R109, R112). -/
def expiring (t : Vector (Option ProbeEntry) 8) : List ProbeEntry :=
  (entriesOf t).filter fun e => decide (e.remaining ≤ 1)

/-- A slot's probe field after the timeout of some entries: absent when it carries the number of one of them (R112). -/
def fieldAfterTimeout (expired : List ProbeEntry) (i : Slot) (p : SlotProbe) : SlotProbe :=
  match p.field with
  | none => p
  | some f => if expired.any (fun e => e.slot == i && e.number == f.number) then { p with field := none } else p

/-- The countdown: every entry one lower, those that reach 0 time out (R109, R112). -/
def countdown (s : State) : State :=
  let expired := expiring s.probe.table
  { s.mapSlots (fun i sl => { sl with probe := fieldAfterTimeout expired i sl.probe }) with
    probe := { s.probe with
      table := mapTable s.probe.table fun e => if e.remaining ≤ 1 then none
        else some { e with remaining := e.remaining - 1 }
      lost := min Config.countMax (s.probe.lost + expired.length) } }

/-- Whether the next boundary brings the interval count to the interval (R109). -/
def intervalAhead (s : State) : Bool := decide (s.probe.intervalCount + 1 ≥ s.probe.interval)

/-- The interval count, and the rotation step when it reaches the interval (R109). -/
def countInterval (s : State) : State :=
  if intervalAhead s then rotationStep { s with probe := { s.probe with intervalCount := 0 } }
  else { s with probe := { s.probe with intervalCount := s.probe.intervalCount + 1 } }

/-- A local period boundary at the probe engine: countdown, then interval count, within one event (R109). -/
def probeBoundary (s : State) : State :=
  countInterval (countdown { s with probe := { s.probe with boundariesDue := s.probe.boundariesDue - 1 } })

/-! ## Transmit cycle starts -/

/-- The probe field at a transmit cycle start that launches no probe (R111). -/
def ageField : Option ProbeField → Option ProbeField
  | none => none
  | some f => if f.age < 3 then some { f with age := f.age + 1 } else none

/-- The echo field of a pending echo: its hold is measured to the transmit cycle start, and a hold above 16,777,215
is dropped unsent (R121). -/
def echoOfPending (start : Stamp) (p : PendingEcho) : Option EchoField :=
  if (start - p.received).toNat ≤ Config.delayMax then
    some { number := p.number, age := 0, hold := (start - p.received).toNat }
  else none

/-- The echo field of a slot without a pending echo (R121). -/
def ageEcho : Option EchoField → Option EchoField
  | none => none
  | some f => if f.age < 3 then some { f with age := f.age + 1 } else none

/-- What the probe engine does at one ORIGINATE slot at a transmit cycle start; `armed` is the number of an ARMED entry
for the slot (R110, R121). -/
def slotCycleStart (start : Stamp) (armed : Option Byte) (p : SlotProbe) : SlotProbe :=
  { p with
    field := match armed with
      | some n => some { number := n, age := 0 }
      | none => ageField p.field
    echoField := match p.pendingEcho with
      | some e => echoOfPending start e
      | none => ageEcho p.echoField
    pendingEcho := none }

/-- The number of a slot's ARMED entry. -/
def armedNumber (t : Vector (Option ProbeEntry) 8) (i : Slot) : Option Byte :=
  match entryOf t i with
  | some e => if e.launch.isNone then some e.number else none
  | none => none

/-- The entries after a transmit cycle start: ARMED ones on ORIGINATE slots become IN_FLIGHT (R110). -/
def launchEntries (s : State) (start : Stamp) : Vector (Option ProbeEntry) 8 :=
  mapTable s.probe.table fun e =>
    if e.launch.isNone ∧ s.slots[e.slot].map.txRole = .originate then some { e with launch := some start }
    else some e

/-! ## Withdrawal and filter reset -/

/-- A withdraw request taken at the probe engine (R113). -/
def withdrawSlot (s : State) (i : Slot) : State :=
  { s.modSlot i (fun sl => { sl with probe := { sl.probe with field := none } }) with
    probe := { s.probe with table := freeEntry s.probe.table i } }

/-- A filter reset request taken at the probe engine (R114). -/
def resetFilter (p : SlotProbe) : SlotProbe := { p with average := none, sampleCount := 0 }

/-! ## Echo receipt -/

/-- The launch stamp of the IN_FLIGHT entry for a slot with a number (R115). -/
def launchOf (t : Vector (Option ProbeEntry) 8) (i : Slot) (number : Byte) : Option Stamp :=
  match entryOf t i with
  | some e => if e.number = number then e.launch else none
  | none => none

/-- The sample of a matched echo is accepted: it enters the filter and is handed to the context (R115, R127). -/
def acceptSample (inp : CheckInputs) (sample : Nat) (sl : SlotState) : SlotState :=
  { sl with probe := filterSample sl.probe sample (slotProfile inp sl.map).filterWeight
            inFlight := { sl.inFlight with samples := sl.inFlight.samples + 1 } }

/-- An echo that matches the entry launched at `launch`: the entry is freed and the sample judged; with an EMPTY map
entry no sample is computed (R115, R119, R127). -/
def matchedEcho (s : State) (i : Slot) (launch : Stamp) (h : EchoHandoff) : State :=
  let freed := { s with probe := { s.probe with table := freeEntry s.probe.table i } }
  let sample := sampleOf launch h.cycleStart h.echoAge h.echoHold
  if s.slots[i].map.entry.isNone then freed
  else if sampleAccepted sample then freed.modSlot i (acceptSample (checkInputs s) sample)
  else { freed with probe := { freed.probe with rejected := satInc Config.countMax freed.probe.rejected } }

/-- An echo that finds no matching entry is late when its number is new (R116). -/
def unmatchedEcho (s : State) (i : Slot) (h : EchoHandoff) : State :=
  if h.echoNumber = s.slots[i].probe.lastEcho then s
  else { s with probe := { s.probe with late := satInc Config.countMax s.probe.late } }

/-- The echo part of an echo receipt (R115, R116). -/
def takeEcho (s : State) (i : Slot) (h : EchoHandoff) : State :=
  if h.echoNumber = 0 then s
  else
    let judged := match launchOf s.probe.table i h.echoNumber with
      | some launch => matchedEcho s i launch h
      | none => unmatchedEcho s i h
    judged.modSlot i fun sl => { sl with probe := { sl.probe with lastEcho := h.echoNumber } }

/-- The responder takes a far-end probe (R120). -/
def respond (h : EchoHandoff) (p : SlotProbe) : SlotProbe :=
  if h.probeNumber = 0 ∨ h.probeNumber = p.lastResponded then p
  else
    { p with
      lastResponded := h.probeNumber
      pendingEcho := some { number := h.probeNumber, received := ageCorrected h.cycleStart h.probeAge } }

/-- The probe and echo fields of a valid tag reach the probe engine: they act under ORIGINATE (R115, R120). -/
def takeHandoff (s : State) (i : Slot) (h : EchoHandoff) : State :=
  if s.slots[i].map.txRole = .originate then
    (takeEcho s i h).modSlot i fun sl => { sl with probe := respond h sl.probe }
  else s

end Sys2Proof.Machine
end

