-- ==== Sys2Proof/Machine/Tags.lean ====
section
/-! DEFINITION. Trail tags: the tag receiver of one slot (R21 to R30) and the tag bytes of line-out (R32 to R37). -/

namespace Sys2Proof.Machine

/-! ## The tag receiver -/

/-- A slip at one slot (R22). -/
def tagSlip (t : TagReceiver) : TagReceiver :=
  { t with slipMark := true, assembly := Vector.replicate 32 none, paritySum := 0 }

/-- An alignment loss at one slot (R23). -/
def tagAlignmentLoss (t : TagReceiver) : TagReceiver :=
  { t with assembly := Vector.replicate 32 none, slipMark := false, paritySum := 0, forwardDefectSeen := false,
           protectBit := false, held := none, runLength := 0, tagLossCount := 0, candidate := none }

/-- The assembly after the tag byte of a frame; a frame of phase 0 empties all positions first (R21). -/
def assemblyAfter (a : Vector (Option Byte) 32) (p : Phase) (tag : Byte) : Vector (Option Byte) 32 :=
  (if p = 0 then Vector.replicate 32 none else a).set p.toNat (some tag) p.isLt

/-- The slot overhead of one delivered frame (R21). -/
def takeOverhead (t : TagReceiver) (p : Phase) (tag condition : Byte) (mismatches : Nat) : TagReceiver :=
  { t with assembly := assemblyAfter t.assembly p tag
           paritySum := t.paritySum + mismatches
           forwardDefectSeen := t.forwardDefectSeen || forwardDefect condition
           protectBit := protectActive condition }

/-- The parity mismatch count of a frame: no check is made while the memory is empty (R12). -/
def parityMismatches (memory : Option Byte) (parity : Byte) : Nat :=
  match memory with
  | none => 0
  | some m => countOnes (parity ^^^ m)

/-- The judgement of an assembled tag by rows 3 to 6 of R24. -/
def judgeTag (t : List Byte) : TagResult :=
  if !tagCheckCorrect t then .invalid .checkError
  else if byteAt t 0 ≠ Config.tagKind then .invalid .foreign
  else if (byteAt t 16).toNat > 6 ∨ (byteAt t 10).toNat > 3 ∨ (byteAt t 12).toNat > 3 then .invalid .malformed
  else .valid

/-- The judgement at a line cycle end (R24). -/
def judgeAssembly (t : TagReceiver) : TagResult :=
  if t.slipMark then .invalid .slip
  else match assembledTag t.assembly with
    | none => .invalid .incomplete
    | some tag => judgeTag tag

/-- The bytes of the assembly; unfilled positions do not occur in a valid tag. -/
def assemblyBytes (t : TagReceiver) : List Byte := (assembledTag t.assembly).getD []

/-- The run length after a valid tag (R26). -/
def runAfterValid (t : TagReceiver) (new : HeldTag) : Nat :=
  match t.lastValid with
  | some v => if persistentFields v.bytes = new then satInc 2 t.runLength else 1
  | none => 1

/-- The tag records after a valid cycle end (R25, R26, R27). A valid tag always has a cycle-start stamp (R24). -/
def afterValid (t : TagReceiver) (bytes : List Byte) (start : Option Stamp) : TagReceiver :=
  let new := persistentFields bytes
  let run := runAfterValid t new
  { t with runLength := run
           held := if run = 2 then some new else t.held
           lastValid := some { bytes := bytes, stamp := start.getD 0 }
           tagLossCount := 0 }

/-- The tag records after an invalid cycle end: the eighth in a row clears the held tag (R25, R27). -/
def afterInvalid (t : TagReceiver) (f : TagFault) : TagReceiver :=
  { t with lastFault := some f
           tagLossCount := satInc 8 t.tagLossCount
           held := if t.tagLossCount = 7 then none else t.held
           runLength := if t.tagLossCount = 7 then 0 else t.runLength }

/-- The tag records after a cycle end (R24 to R27). -/
def afterJudgement (t : TagReceiver) (start : Option Stamp) : TagReceiver :=
  match judgeAssembly t with
  | .valid => afterValid t (assemblyBytes t) start
  | .invalid f => afterInvalid t f

/-- The cycle's protect indication (R28). -/
def protectIndication (t : TagReceiver) : Protect := if t.protectBit then .protect else .working

/-- Two agreeing cycle ends change the held protect state (R28). -/
def protectChanges (t : TagReceiver) : Bool :=
  t.candidate == some (protectIndication t) && protectIndication t != t.heldProtect

/-- The protect records after a cycle end (R28). -/
def afterProtect (t : TagReceiver) : TagReceiver :=
  { t with heldProtect := if protectChanges t then protectIndication t else t.heldProtect
           candidate := some (protectIndication t) }

/-- A valid cycle end with a run of 2 whose tag was not held before carries held tag changed (R26). -/
def heldTagChanges (t : TagReceiver) (start : Option Stamp) : Bool :=
  judgeAssembly t == .valid && (afterJudgement t start).runLength == 2 &&
    t.held != (afterJudgement t start).held

/-- The tag receiver's records after a cycle end, the report's accumulations not yet emptied. -/
def afterCycleEnd (t : TagReceiver) (start : Option Stamp) : TagReceiver := afterProtect (afterJudgement t start)

/-- The cycle report of a line cycle end (R29). -/
def cycleReportOf (t : TagReceiver) (start : Option Stamp) : CycleReport :=
  { result := judgeAssembly t
    parityErrors := t.paritySum
    forwardDefectSeen := t.forwardDefectSeen
    held := (afterCycleEnd t start).held
    heldChanged := heldTagChanges t start
    protect := (afterCycleEnd t start).heldProtect
    protectChanged := protectChanges t
    tagLoss := (afterCycleEnd t start).tagLossCount == 8
    cycleStart := start }

/-- Emptied once the report has been made (R21, R29). -/
def emptyAccumulations (t : TagReceiver) : TagReceiver :=
  { t with paritySum := 0, forwardDefectSeen := false, slipMark := false }

/-- The hand-off to the probe engine at a cycle end with a valid tag (R30). -/
def handoffsOf (t : TagReceiver) (start : Option Stamp) : List EchoHandoff :=
  match judgeAssembly t with
  | .valid => [echoHandoffOf (assemblyBytes t) (start.getD 0)]
  | .invalid _ => []

/-- A line cycle end at one slot: the report goes to the context, the hand-off to the probe engine (R29, R30). -/
def tagCycleEnd (start : Option Stamp) (sl : SlotState) : SlotState :=
  { sl with
    tag := emptyAccumulations (afterCycleEnd sl.tag start)
    inFlight := { sl.inFlight with reports := sl.inFlight.reports ++ [cycleReportOf sl.tag start]
                                   echoes := sl.inFlight.echoes ++ handoffsOf sl.tag start } }

/-! ## The originated tag -/

/-- Bytes 0 to 29 of an originated tag (R36). -/
def originBody (identity : Option Half) (l : Latched) : List Byte :=
  [Config.tagKind] ++ halfBytes (identity.getD 0) ++ [l.port] ++ halfBytes l.trail ++ halfBytes l.epoch ++
  [if l.window then 1 else 0, l.probeNumber, BitVec.ofNat 8 l.probeAge, l.echoNumber, BitVec.ofNat 8 l.echoAge] ++
  beBytes 3 l.echoHold ++ [0, 0] ++ List.replicate 12 0

/-- The 32 bytes of an originated tag (R36). -/
def originTag (identity : Option Half) (l : Latched) : List Byte :=
  originBody identity l ++ halfBytes (checkOf (originBody identity l))

/-! ## Stamping -/

/-- The stamping decision once byte `p` has been received (R34). -/
def decisionAfter (identity : Option Half) (d : StampDecision) (p : Nat) (b : Byte) : StampDecision :=
  if p = 0 then
    if identity = none ∨ b ≠ Config.tagKind then .carried else .candidate
  else if p = 16 then
    match d with
    | .candidate => if b.toNat > 6 then .carriedTail else .stamped b.toNat
    | d => d
  else d

/-- The byte emitted at position `p` of a tag that is stamped with received count `c` (R34, R35). -/
def stampedByte (node : Half) (t : TagTransmitter) (c p : Nat) (b : Byte) : Byte :=
  if p = 16 then BitVec.ofNat 8 (min 6 (c + 1))
  else if p = 17 then if c = 6 then b ||| 1 else b
  else if p = 30 then
    if b = highByte t.receivedCheck then highByte t.emittedCheck else highByte t.emittedCheck ^^^ 0xFF
  else if p = 31 then
    if t.highRight ∧ b = lowByte t.receivedCheck then lowByte t.emittedCheck else lowByte t.emittedCheck ^^^ 0xFF
  else if c < 6 ∧ p = 18 + 2 * c then highByte node
  else if c < 6 ∧ p = 19 + 2 * c then lowByte node
  else b

/-- The byte that a STAMP slot emits in FOLLOW for the received byte at position `p` (R34). -/
def stampByte (identity : Option Half) (t : TagTransmitter) (p : Nat) (b : Byte) : Byte :=
  match decisionAfter identity t.decision p b with
  | .stamped c => stampedByte (identity.getD 0) t c p b
  | _ => b

/-- The tag byte that a slot emits at position `p` of a transmit tag cycle (R33, R34, R36); `b` is the byte received
on drop-in. -/
def cycleByte (timing : Timing) (identity : Option Half) (t : TagTransmitter) (p : Nat) (b : Byte) : Byte :=
  match t.latched.role, timing with
  | .originate, _ => byteAt (originTag identity t.latched) p
  | _, .localTimed => 0
  | .carry, .follow => b
  | .stamp, .follow => stampByte identity t p b

/-- The tag byte of a frame that belongs to no transmit tag cycle (R17). -/
def strayByte (timing : Timing) (role : TxRole) (b : Byte) : Byte :=
  match role, timing with
  | .originate, _ => 0
  | _, .localTimed => 0
  | _, .follow => b

/-- The source of a tag emitted whole (R37). -/
def sourceOf (timing : Timing) (role : TxRole) (d : StampDecision) : TagSource :=
  match role, timing with
  | .originate, _ => .originated
  | _, .localTimed => .idle
  | .carry, .follow => .carried
  | .stamp, .follow =>
    match d with
    | .stamped _ => .stamped
    | _ => .carried

/-- The completed cycle of a slot replaces its last emitted tag (R37). -/
def recordEmitted (t : TagTransmitter) : TagTransmitter :=
  match t.completed with
  | none => t
  | some e => { t with lastEmitted := some e, completed := none }

/-- What a slot has stored of completed cycles once its phase-31 byte is on its way: an older cycle that still waits is
recorded first (R37). -/
def beforeByte (p : Nat) (t : TagTransmitter) : TagTransmitter := if p = 31 then recordEmitted t else t

/-- The line transmitter's record of a slot after position `p` of a cycle (R34, R35, R37). -/
def cycleNext (timing : Timing) (identity : Option Half) (p : Nat) (b : Byte) (t : TagTransmitter) :
    TagTransmitter :=
  let out := cycleByte timing identity t p b
  let decision := decisionAfter identity t.decision p b
  let emitted := t.emitted ++ [out]
  { beforeByte p t with
    decision := decision
    receivedCheck := if p < 30 then checkByte t.receivedCheck b else t.receivedCheck
    emittedCheck := if p < 30 then checkByte t.emittedCheck out else t.emittedCheck
    highRight := if p = 30 then b == highByte t.receivedCheck else t.highRight
    emitted := emitted
    completed := if p = 31 then some { source := sourceOf timing t.latched.role decision, bytes := emitted }
                 else t.completed }

/-- A slot when the frame with the phase-31 byte of its cycle is cut off after `sent` bytes: the cycle is complete only if
the slot's tag byte, byte 64 + 3 * i, had been emitted (R3, R17, R37). -/
def cutTag (sent : Nat) (i : Slot) (t : TagTransmitter) : TagTransmitter :=
  if sent ≤ 64 + 3 * i.val then { t with completed := none } else t

end Sys2Proof.Machine
end

