-- ==== Sys2Proof/Machine/Frames.lean ====
section
/-! DEFINITION. Carrier frames: alignment (R6 to R10), delivery (R11, R12), the outputs (R13 to R17) and the transmit
tag cycles of line-out (R32 to R37). -/

namespace Sys2Proof.Machine

/-! ## Alignment -/

/-- Whether a word and a phase byte make a frame start: the alignment word and a phase of 0..31 (R6). -/
def frameStartMatches (bs : List Byte) : Bool :=
  bs.take 4 == Config.alignmentWord.toList && decide (4 < bs.length) && decide ((byteAt bs 4).toNat < 32)

/-- The search of HUNT from a position on: the first frame start's position and phase, or the position at which the
search goes on when more bytes have arrived (R6). -/
def huntSearch : List Byte → Nat → Option (Nat × Phase) × Nat
  | [], position => (none, position)
  | b :: bs, position =>
    if frameStartMatches (b :: bs) then (some (position, (byteAt (b :: bs) 4).setWidth 5), position)
    else if bs.length < 4 then (none, position)
    else huntSearch bs (position + 1)

/-- HUNT examines the input from its search position on (R6). -/
def huntReceiver (r : Receiver) (input : List Byte) : Receiver :=
  match huntSearch input r.searchFrom with
  | (some (start, phase), _) => { r with align := .confirm start phase }
  | (none, position) => { r with searchFrom := position }

/-- Whether the frame after a candidate confirms it (R7). -/
def confirms (phase : Phase) (word : Vector Byte 4) (b : Byte) : Bool :=
  word == Config.alignmentWord && decide (b.toNat < 32) && b.setWidth 5 == phase + 1

/-- CONFIRM reads the frame after its candidate (R7). -/
def confirmReceiver (r : Receiver) (start : Nat) (phase : Phase) (word : Vector Byte 4) (b : Byte) : Receiver :=
  if confirms phase word b then
    { r with align := .locked, missCount := 0, phase := some (b.setWidth 5),
             nextStart := some (start + 2 * Config.frameBytes) }
  else { r with align := .hunt, searchFrom := start + 1 }

/-- The judgements of a frame in LOCKED, with the phase the receiver goes by (R8). -/
inductive Judgement where
  | good (phase : Phase)
  | slip (phase : Phase)
  | miss (phase : Phase)
  | loss (phase : Phase)
  deriving DecidableEq, Repr

/-- The judgement of a frame at its byte 4 (R8). -/
def judgeLocked (r : Receiver) (word : Vector Byte 4) (b : Byte) : Judgement :=
  let next := r.phase.getD 0 + 1
  if word ≠ Config.alignmentWord ∨ b.toNat > 31 then
    if r.missCount + 1 < 3 then .miss next else .loss next
  else if b.setWidth 5 = next then .good next
  else .slip (b.setWidth 5)

/-- The position of the frame being judged. -/
def judgedStart (r : Receiver) : Nat := r.nextStart.getD 0

/-- The receiver after a judgement (R8). -/
def receiverAfter (r : Receiver) : Judgement → Receiver
  | .good p => { r with phase := some p, missCount := 0, nextStart := some (judgedStart r + Config.frameBytes) }
  | .slip p => { r with phase := some p, missCount := 0, nextStart := some (judgedStart r + Config.frameBytes) }
  | .miss p =>
    { r with phase := some p, missCount := r.missCount + 1, nextStart := some (judgedStart r + Config.frameBytes) }
  | .loss p =>
    { align := .hunt, missCount := 0, phase := some p, nextStart := some (judgedStart r + Config.frameBytes),
      searchFrom := judgedStart r + 5 }

/-! ## Output frames -/

/-- A new frame on an output, which no management byte has entered yet (R5). -/
def newFrame (phase : Phase) (carried : List Byte) (slots : Vector SlotBytes 128) : OutFrame :=
  { phase := phase, tagsSent := false, placed := [], carried := carried, slots := slots, cut := none }

/-- The output starts a frame, when `sent` bytes of its frame before have been sent (R5, R160). -/
def putFrame (s : State) (output : Side) (timing : Timing) (sent : Nat) (f : OutFrame) : State :=
  { s with
    output := s.output.set output
      { timing := timing, frame := some f, frameDue := false
        last := (s.output.get output).frame.map (endFrame (s.management.arbiter.get output) sent) }
    management := { s.management with
      arbiter := s.management.arbiter.set output (arbiterAtEnd s output sent) } }

/-- An output leaves FOLLOW for LOCAL when `sent` bytes of its frame have been sent: the frame is cut off there, the output
carries 00h (`outputByte`), and its LOCAL frame waits for the next multiple of 512 (R14). An output in LOCAL stays as it
is. The frame that it is sending is taken to be the last delivered one, which the manual leaves open; sent whole, that
frame is not cut off and gives the parity of R15 (DESIGN CHOICE, log entry 22). -/
def leaveFollow (s : State) (output : Side) (sent : Nat) : State :=
  match (s.output.get output).timing with
  | .follow =>
    { s with
      output := s.output.set output { s.output.get output with
        timing := .localTimed, frameDue := false
        frame := (s.output.get output).frame.map (endFrame (s.management.arbiter.get output) sent) }
      management := { s.management with
        arbiter := s.management.arbiter.set output (arbiterAtEnd s output sent) } }
  | .localTimed => s

/-- How much of an output's frame has been sent when a frame in FOLLOW starts: all of a frame in FOLLOW, and of a LOCAL
frame, which the output abandons, `sent` bytes (R13, R16). -/
def sentBefore (o : Output) (sent : Nat) : Nat :=
  match o.timing with
  | .follow => Config.frameBytes
  | .localTimed => sent

/-- The parity byte of a LOCAL frame: the exclusive-OR of the payload of the output's previous frame, or 00h when that
frame was cut off or there is none (R15). -/
def localParity (o : Output) (i : Slot) : Byte :=
  match o.frame with
  | none => 0
  | some f => if f.cut.isSome then 0 else xorBytes f.slots[i].payload

/-- The slots of a LOCAL frame before tag bytes are written (R4, R15). -/
def localSlots (o : Output) : Vector SlotBytes 128 :=
  vectorOf fun i : Slot =>
    { tag := 0, parity := localParity o i, condition := 0x01, payload := List.replicate Config.payloadBytes 0 }

/-- The phase of a LOCAL frame: the stamp divided by 512, modulo 32 (R15). -/
def localPhase (stamp : Stamp) : Phase := stamp.extractLsb' 9 5

/-- A LOCAL frame of an output at the stamp that stands (R15). -/
def localFrame (s : State) (output : Side) : OutFrame :=
  newFrame (localPhase s.timebase.stamp) (List.replicate Config.carriedBytes 0) (localSlots (s.output.get output))

/-! ## Transmit tag cycles -/

/-- The transmit tag cycle in progress, unless a line-out frame of this phase breaks it off (R17). -/
def cycleAt (s : State) (p : Phase) : Option TxCycle :=
  match s.lineTx.cycle with
  | none => none
  | some c => if c.next = p.toNat then some c else none

/-- The tag bytes of a line-out frame: of the cycle in progress, or of a frame that belongs to none (R17, R33 to
R36). -/
def lineTags (s : State) (timing : Timing) (inCycle : Bool) (p : Phase) (slots : Vector SlotBytes 128) :
    Vector SlotBytes 128 :=
  vectorOf fun i : Slot =>
    { slots[i] with
      tag := if inCycle then cycleByte timing s.lineTx.identity s.slots[i].tx p.toNat slots[i].tag
             else strayByte timing s.slots[i].map.txRole slots[i].tag }

/-- The line transmitter's records after the tag bytes of one frame of the cycle in progress (R34 to R37). -/
def advanceCycle (s : State) (timing : Timing) (c : TxCycle) (p : Phase) (slots : Vector SlotBytes 128) : State :=
  { s.mapSlots (fun i sl => { sl with tx := cycleNext timing s.lineTx.identity p.toNat slots[i].tag sl.tx }) with
    lineTx := { s.lineTx with cycle := if p = 31 then none else some { c with next := p.toNat + 1 }
                              ending := p == 31 } }

/-- A line-out frame starts. A frame of phase 0 makes a transmit cycle start due, and its tag bytes are written there;
any other frame carries the next byte of the cycle in progress, or belongs to none (R17, R32). -/
def startLineFrame (s : State) (timing : Timing) (sent : Nat) (f : OutFrame) : State :=
  if f.phase = 0 then
    putFrame { s with lineTx := { s.lineTx with cycle := none, startDue := true, ending := false } } .line timing sent f
  else
    let idle := { s with lineTx := { s.lineTx with cycle := cycleAt s f.phase, startDue := false, ending := false } }
    let tagged := { f with slots := lineTags s timing (cycleAt s f.phase).isSome f.phase f.slots }
    match cycleAt s f.phase with
    | none => putFrame idle .line timing sent tagged
    | some c => putFrame (advanceCycle idle timing c f.phase f.slots) .line timing sent tagged

/-- The values latched for a slot at a transmit cycle start (R32). -/
def latch (m : SlotMap) (c : Context) (p : SlotProbe) (old : Latched) : Latched :=
  if m.txRole = .originate then
    { role := .originate, port := m.originPort, trail := m.originTrail, epoch := m.originEpoch
      window := c.state == .window
      probeNumber := (p.field.map ProbeField.number).getD 0, probeAge := (p.field.map ProbeField.age).getD 0
      echoNumber := (p.echoField.map EchoField.number).getD 0, echoAge := (p.echoField.map EchoField.age).getD 0
      echoHold := (p.echoField.map EchoField.hold).getD 0 }
  else { old with role := m.txRole }

/-- One slot at a transmit cycle start: the probe engine's changes under ORIGINATE, then the latch (R32, R110). -/
def slotAtCycleStart (start : Stamp) (armed : Option Byte) (sl : SlotState) : SlotState :=
  let probe := if sl.map.txRole = .originate then slotCycleStart start armed sl.probe else sl.probe
  { sl with
    probe := probe
    tx := { sl.tx with latched := latch sl.map sl.context probe sl.tx.latched, decision := .undecided
                       receivedCheck := 0xFFFF, emittedCheck := 0xFFFF, highRight := false, emitted := [] } }

/-- The latching of a transmit cycle start at the stamp that stands, and the launches of the probe engine (R32,
R110). -/
def latchCycle (s : State) : State :=
  { s.mapSlots (fun i sl => slotAtCycleStart s.timebase.stamp (armedNumber s.probe.table i) sl) with
    probe := { s.probe with table := launchEntries s s.timebase.stamp }
    lineTx := { identity := s.management.identity, cycle := some { start := s.timebase.stamp, next := 0 }
                startDue := false, ending := false } }

/-- The transmit cycle start that is due: the latch, and the tag bytes of the phase-0 frame (R32 to R36). -/
def startCycle (s : State) : State :=
  match s.output.line.frame with
  | none => s
  | some f =>
    if s.lineTx.startDue then
      let l := latchCycle s
      let timing := s.output.line.timing
      { advanceCycle l timing { start := s.timebase.stamp, next := 0 } 0 f.slots with
        output := s.output.set .line
          { s.output.line with frame := some { f with slots := lineTags l timing true 0 f.slots } } }
    else s

/-- The transmit tag cycle in progress is cut short when `sent` bytes of line-out's frame have been sent. In a frame of
phase 31 the cycle of a slot whose tag byte has not been emitted is cut, and yields no complete tag (R14, R16, R17,
R37). -/
def cutCycle (s : State) (sent : Nat) : State :=
  let shown := outputSentBy s.output.line sent
  { s.mapSlots (fun i sl => { sl with tx := if s.lineTx.ending then cutTag shown i sl.tx else sl.tx }) with
    lineTx := { s.lineTx with cycle := none, startDue := false, ending := false } }

/-- A transmit tag cycle is complete: each slot's completed cycle replaces its last emitted tag. Where line-out is still
sending the frame with the phase-31 bytes, they have all been sent (R37). -/
def completeCycle (s : State) : State :=
  { s.mapSlots (fun _ sl => { sl with tx := recordEmitted sl.tx }) with
    output := s.output.set .line { s.output.line with
      frame := s.output.line.frame.map fun f => { f with tagsSent := f.tagsSent || s.lineTx.ending } } }

/-! ## Line-in -/

/-- The line cycle-start stamp after the start of a delivered frame (R11). -/
def cycleStartAfter (s : State) (j : Judgement) (p : Phase) : Option Stamp :=
  if p = 0 then some s.timebase.stamp
  else match j with
    | .slip _ => none
    | _ => s.lineCycleStart

/-- A delivered line-in frame at one slot: the slip if there is one, the overhead with its parity count, the parity
memory, and the cycle end of a phase-31 frame (R8, R11, R12, R21, R22, R24). -/
def deliverSlot (slipped : Bool) (p : Phase) (start : Option Stamp) (b : SlotBytes) (sl : SlotState) : SlotState :=
  let slipAt := if slipped then tagSlip sl.tag else sl.tag
  let taken :=
    { sl with
      tag := takeOverhead slipAt p b.tag b.condition (parityMismatches sl.parityMemory b.parity)
      parityMemory := some (xorBytes b.payload) }
  if p = 31 then tagCycleEnd start taken else taken

/-- Whether a judgement is a slip. -/
def isSlip : Judgement → Bool
  | .slip _ => true
  | _ => false

/-- A delivered line-in frame (R11): cycle start, management bytes, slot overhead, cycle end, and the frame that
drop-out carries in FOLLOW (R13, R16). -/
def deliverLine (s : State) (j : Judgement) (p : Phase) (f : Frame) (sent : Nat) : State :=
  let start := cycleStartAfter s j p
  let slots := s.mapSlots fun i sl => deliverSlot (isSlip j) p start f.slots[i] sl
  putFrame
    { slots with
      lineCycleStart := start
      management := { s.management with
        channel := s.management.channel.set .line (channelBytes s.management.channel.line f.mgmt.toList) } }
    .drop .follow (sentBefore s.output.drop sent) (newFrame p f.carried f.slots)

/-- The line receiver leaves LOCKED (R9, R11, R14, R23). -/
def loseLine (s : State) (sent : Nat) : State :=
  leaveFollow
    { s.mapSlots (fun _ sl =>
        { sl with
          tag := tagAlignmentLoss sl.tag
          parityMemory := none
          inFlight := { sl.inFlight with losses := sl.inFlight.losses + 1 } }) with
      lineCycleStart := none
      management := { s.management with
        channel := s.management.channel.set .line (abandonFrame s.management.channel.line) } }
    .drop sent

/-- A frame in LOCKED on line-in (R8). -/
def lineFrame (s : State) (f : Frame) (sent : Nat) : State :=
  let j := judgeLocked s.receiver.line f.word f.phase
  let judged := { s with receiver := s.receiver.set .line (receiverAfter s.receiver.line j) }
  match j with
  | .good p => deliverLine judged j p f sent
  | .slip p => deliverLine judged j p f sent
  | .miss p => deliverLine judged j p f sent
  | .loss _ => loseLine judged sent

/-! ## Drop-in -/

/-- A delivered drop-in frame (R10): the management bytes, and the frame that line-out carries in FOLLOW. The first
one after LOCAL cuts the transmit tag cycle in progress (R16, R17). -/
def deliverDrop (s : State) (p : Phase) (f : Frame) (sent : Nat) : State :=
  let heard :=
    { s with management := { s.management with
        channel := s.management.channel.set .drop (channelBytes s.management.channel.drop f.mgmt.toList) } }
  let steady := match s.output.line.timing with
    | .follow => heard
    | .localTimed => cutCycle heard sent
  startLineFrame steady .follow (sentBefore s.output.line sent) (newFrame p f.carried f.slots)

/-- The drop receiver leaves LOCKED (R10, R14). -/
def loseDrop (s : State) (sent : Nat) : State :=
  let abandoned :=
    { s with management := { s.management with
        channel := s.management.channel.set .drop (abandonFrame s.management.channel.drop) } }
  match s.output.line.timing with
  | .follow => leaveFollow (cutCycle abandoned sent) .line sent
  | .localTimed => abandoned

/-- A frame in LOCKED on drop-in (R8, R10). -/
def dropFrame (s : State) (f : Frame) (sent : Nat) : State :=
  let j := judgeLocked s.receiver.drop f.word f.phase
  let judged := { s with receiver := s.receiver.set .drop (receiverAfter s.receiver.drop j) }
  match j with
  | .good p => deliverDrop judged p f sent
  | .slip p => deliverDrop judged p f sent
  | .miss p => deliverDrop judged p f sent
  | .loss _ => loseDrop judged sent

/-! ## LOCAL frames -/

/-- A LOCAL frame starts on an output. Its frame before was sent whole, or had been cut off (R14, R15). -/
def startLocalFrame (s : State) (output : Side) : State :=
  match output with
  | .line => startLineFrame s .localTimed Config.frameBytes (localFrame s .line)
  | .drop => putFrame s .drop .localTimed Config.frameBytes (localFrame s .drop)

/-- Whether an output in LOCAL starts a frame at the stamp that stands (R15). -/
def localFrameReady (s : State) (output : Side) : Bool :=
  (s.output.get output).timing == .localTimed && (s.output.get output).frameDue &&
    s.timebase.stamp.extractLsb' 0 9 == 0

end Sys2Proof.Machine
end

