-- ==== Sys2Proof/Machine/Clock.lean ====
section
/-! DEFINITION. Resets, the reference clock and local period boundaries: POWER_ON, RESETN_ASSERTED, REFCLK_TICK,
LOCAL_PERIOD_BOUNDARY and the rows that name what a boundary reaches. -/

namespace Sys2Proof.Machine

/-- The first frame of each output and the first transmit tag cycle, at stamp 0 (R15, R17, R18, R38). -/
def startOutputs (s : State) : State := startCycle (startLocalFrame (startLocalFrame s .drop) .line)

/-- POWER_ON: RESETN is released. Every block takes its power-on state and each output starts its first LOCAL frame
(R18, R31, R38, R57, R71, R102, R124, R151, R163). -/
def execPowerOn (s : State) : Host.Outcome State Fault Refusal :=
  .next (startOutputs { State.reset with pending := s.pending })

/-- RESETN_ASSERTED: the part is held in power-on reset, with ALERT low and the stamp counter held (R1, R144). -/
def execResetnAsserted (s : State) : Host.Outcome State Fault Refusal :=
  .next { State.reset with resetHeld := true, pending := s.pending }

/-- An output at a tick: a LOCAL frame is due when the new stamp is a multiple of 512 (R15). -/
def tickOutput (stamp : Stamp) (o : Output) : Output := { o with frameDue := stamp.extractLsb' 0 9 == 0 }

/-- One tick of REFCLK: the stamp counter advances by one modulo 2^32, and a boundary is reached at a multiple of
16,384 (R1, R2). -/
def tick (s : State) : State :=
  let stamp := s.timebase.stamp + 1
  { s with
    timebase := { s.timebase with
      stamp := stamp
      boundariesDue := if stamp.extractLsb' 0 14 == 0 then s.timebase.boundariesDue + 1
                       else s.timebase.boundariesDue }
    output := { line := tickOutput stamp s.output.line, drop := tickOutput stamp s.output.drop } }

/-- REFCLK_TICK (R1). -/
def execRefclkTick (s : State) : Host.Outcome State Fault Refusal := act s tick

/-- The boundary at the timebase: the period clock advances, and the boundary is delivered to every context and to the
probe engine (R2). The transmitters take their ticks from the stamp counter (R15). -/
def raiseBoundary (s : State) : State :=
  if s.timebase.boundariesDue = 0 then s
  else
    { s.mapSlots (fun _ sl =>
        { sl with inFlight := { sl.inFlight with boundaries := sl.inFlight.boundaries + 1 } }) with
      timebase := { s.timebase with periodClock := s.timebase.periodClock + 1
                                    boundariesDue := s.timebase.boundariesDue - 1 }
      probe := { s.probe with boundariesDue := s.probe.boundariesDue + 1 } }

/-- Whether a boundary delivered to a slot's context has not been taken. -/
def boundaryWaits (s : State) (i : Slot) : Bool := decide (0 < s.slots[i].inFlight.boundaries)

/-- The boundary at a slot's context (R82, R87, R93). -/
def contextBoundary (s : State) (i : Slot) : State :=
  if boundaryWaits s i then
    s.modSlot i fun sl =>
      takeBoundary (checkInputs s) i
        { sl with inFlight := { sl.inFlight with boundaries := sl.inFlight.boundaries - 1 } }
  else s

/-- Whether a boundary delivered to the probe engine has not been taken. -/
def probeBoundaryWaits (s : State) : Bool := decide (0 < s.probe.boundariesDue)

/-- The boundary at the probe engine (R109). -/
def engineBoundary (s : State) : State := if probeBoundaryWaits s then probeBoundary s else s

/-- The boundary at one of the places where it is taken (R2). -/
def boundaryAt (target : BoundaryAt) (s : State) : State :=
  match target with
  | .timebase => raiseBoundary s
  | .context i => contextBoundary s i
  | .probeEngine => engineBoundary s

/-- LOCAL_PERIOD_BOUNDARY (R2). -/
def execLocalPeriodBoundary (target : BoundaryAt) (s : State) : Host.Outcome State Fault Refusal :=
  act s (boundaryAt target)

/-- SETTLE_LIMIT_REACHED: the boundary at a context that brings its settle timer to the limit (R82). -/
def execSettleLimitReached (i : Slot) (s : State) : Host.Outcome State Fault Refusal :=
  act s fun s => if settleLimitAhead (checkInputs s) s.slots[i] then contextBoundary s i else s

/-- SOAK_END: the boundary at a context that ends its soak, decided by R88 within the same event (R87). -/
def execSoakEnd (i : Slot) (s : State) : Host.Outcome State Fault Refusal :=
  act s fun s => if soakEndAhead (checkInputs s) s.slots[i] then contextBoundary s i else s

/-- DEFECT_HOLD_REACHED: the boundary at a context that brings its defect timer to the hold (R93). -/
def execDefectHoldReached (i : Slot) (s : State) : Host.Outcome State Fault Refusal :=
  act s fun s => if defectHoldAhead (checkInputs s) s.slots[i] then contextBoundary s i else s

/-- INTERVAL_COUNT_EXPIRY: the boundary at the probe engine that brings its interval count to the interval (R109). -/
def execIntervalCountExpiry (s : State) : Host.Outcome State Fault Refusal :=
  act s fun s => if intervalAhead s then engineBoundary s else s

/-- Whether the entry at an index times out at the next boundary (R112). -/
def timeoutAhead (s : State) (index : Fin 8) : Bool :=
  match s.probe.table[index] with
  | some e => decide (e.remaining ≤ 1)
  | none => false

/-- PROBE_TIMEOUT: the boundary at the probe engine at which the entry's periods remaining reaches 0 (R109, R112). -/
def execProbeTimeout (index : Fin 8) (s : State) : Host.Outcome State Fault Refusal :=
  act s fun s => if timeoutAhead s index then engineBoundary s else s

end Sys2Proof.Machine
end

