-- ==== Sys2Proof/Machine/Report.lean ====
section
/-! DEFINITION. The report unit (R139 to R151): taking a finding, the finding queue, the notice payload. -/

namespace Sys2Proof.Machine

/-- Whether the queue holds a record for a slot. -/
def hasRecord (q : List QueuedFinding) (i : Slot) : Bool := q.any fun r => r.finding.slot == i

/-- A queued record replaced in place by a finding of its slot (R145). -/
def replaceRecord (f : Finding) (cls : FindingClass) (r : QueuedFinding) : QueuedFinding :=
  if r.finding.slot = f.slot then { finding := f, cls := cls, superseded := satInc 255 r.superseded } else r

/-- The queue after a finding of an enabled class: replaced in place, or appended at the tail (R145). -/
def enqueue (q : List QueuedFinding) (f : Finding) (cls : FindingClass) : List QueuedFinding :=
  if hasRecord q f.slot then q.map (replaceRecord f cls)
  else q ++ [{ finding := f, cls := cls, superseded := 0 }]

/-- The report unit after a finding: its class, the detected flag, ALERT, and the queue (R140, R143, R144, R145). -/
def reportFinding (r : ReportUnit) (f : Finding) : ReportUnit :=
  let cls := classOf r.settings.severity f.cause
  let flagged := refreshAlert { r with seen := seenAfter r.seen cls }
  if reportEnabled r.settings cls then { flagged with queue := enqueue r.queue f cls } else flagged

/-- Sets the finding-pending mirror of a slot (R97). -/
def setPending (s : State) (i : Slot) (b : Bool) : State :=
  s.modSlot i fun sl => { sl with context := { sl.context with findingPending := b } }

/-- The report unit takes a finding (R145). -/
def takeFinding (s : State) (f : Finding) : State :=
  let told := { s with report := reportFinding s.report f }
  if reportEnabled s.report.settings (classOf s.report.settings.severity f.cause) then setPending told f.slot true
  else told

/-- A shift as two bytes, two's complement. -/
def shiftBytes (v : Int) : List Byte := halfBytes (BitVec.ofInt 16 v)

/-- An identity as five bytes: node, port and trail. -/
def identityBytes (d : Identity) : List Byte := halfBytes d.node ++ [d.port] ++ halfBytes d.trail

/-- An optional value as bytes: 00h in each of its bytes when absent. -/
def optBytes (k : Nat) (v : Option Nat) : List Byte := beBytes k (v.getD 0)

/-- The presence and flags byte of a finding record (R142). -/
def findingFlags (f : Finding) : Byte :=
  BitVec.ofNat 8 (bitsToNat
    [f.identity.isSome, f.average.isSome, f.shift.isSome, f.baselineSet, (f.shift.map Prod.snd).getD false])

/-- A finding record as the 29 bytes of a notice payload (R142). -/
def recordBytes (q : QueuedFinding) : List Byte :=
  let f := q.finding
  [BitVec.ofNat 8 f.slot.val, BitVec.ofNat 8 (kindCode f.kind), BitVec.ofNat 8 ((f.cause.map causeCode).getD 0),
    BitVec.ofNat 8 (classCode q.cls)] ++
  halfBytes f.epoch ++ beBytes 4 f.clock.toNat ++ [findingFlags f] ++
  (f.identity.map identityBytes).getD (List.replicate 5 0) ++
  optBytes 1 (f.result.map matchCode) ++ beBytes 2 f.erroredCount ++ beBytes 1 f.restartCount ++
  optBytes 3 f.average ++ optBytes 3 f.oneWay ++ shiftBytes ((f.shift.map Prod.fst).getD 0) ++
  beBytes 1 q.superseded

/-- The notice frame of a record (R146, R161). -/
def noticeFrame (identity destination : Half) (sequence : Byte) (q : QueuedFinding) : List Byte :=
  buildFrame destination identity 0x03 sequence (recordBytes q)

/-- The notice that the report unit offers: the head record with the identity and the destination (R146). -/
def offeredNotice (s : State) : Option (Half × Half × QueuedFinding) :=
  match s.report.queue, s.management.identity, s.report.settings.destination with
  | q :: _, some identity, some destination => some (identity, destination, q)
  | _, _, _ => none

/-- Whether a forward buffer is HOLDING. -/
def forwardHolding : ForwardBuffer → Bool
  | .holding _ => true
  | _ => false

/-- Whether a reply buffer is HOLDING. -/
def replyHolding : ReplyBuffer → Bool
  | .holding _ _ => true
  | _ => false

/-- Whether the report side's arbiter may start a notice: a position for it, and neither of its buffers HOLDING
(R146, R160). -/
def noticeCanStart (s : State) (skip : Nat) : Bool :=
  canStart s s.report.settings.side skip && !forwardHolding (s.management.forward.get s.report.settings.side) &&
    !replyHolding (s.management.reply.get s.report.settings.side)

/-- A notice start: the head record leaves the queue, its slot's mirror is cleared, the sequence count advances after
its value has been placed, and the frame is started (R147, R161). -/
def startNotice (s : State) (skip : Nat) : State :=
  match offeredNotice s with
  | none => s
  | some (identity, destination, q) =>
    if noticeCanStart s skip then
      let left :=
        { setPending s q.finding.slot false with
          report := { s.report with queue := s.report.queue.tail }
          management := { s.management with noticeSequence := s.management.noticeSequence + 1 } }
      startSending left s.report.settings.side skip .notice
        (noticeFrame identity destination s.management.noticeSequence q)
    else s

end Sys2Proof.Machine
end

