-- ==== Sys2Proof/Machine/Requests.lean ====
section
/-! DEFINITION. What the owning blocks do with the requests of the management channel (R42 to R67, R77 to R79, R94, R106,
R149, R150, R165 to R181). -/

namespace Sys2Proof.Machine

/-- What an owner answers to a request: the state after it, the outcome and the reply data. -/
structure Answer where
  state : State
  outcome : ReplyOutcome
  data : List Byte

/-- A refused command changes nothing and gives no data (R164). -/
def refuse (s : State) (outcome : ReplyOutcome) : Answer := { state := s, outcome := outcome, data := [] }

/-- DONE without data. -/
def done (s : State) : Answer := { state := s, outcome := .done, data := [] }

/-- DONE with data. -/
def doneWith (s : State) (data : List Byte) : Answer := { state := s, outcome := .done, data := data }

/-! ## Identity and windows -/

/-- SET NODE IDENTITY (R165). -/
def answerSetNodeIdentity (s : State) (p : List Byte) : Answer :=
  if !nodeNumber (halfAt p 1) then refuse s .value
  else if s.management.identity.isSome then refuse s .identity
  else done { s with management := { s.management with identity := some (halfAt p 1) } }

/-- Whether a slot lies in a range of `count` slots from `first` (R79). -/
def inRange (first count : Nat) (i : Slot) : Bool := decide (first ≤ i.val ∧ i.val < first + count)

/-- How many slots of a range satisfy a test before the request. -/
def countSlots (s : State) (first count : Nat) (test : SlotState → Bool) : Nat :=
  ((List.finRange 128).filter fun i => inRange first count i && test s.slots[i]).length

/-- OPEN WINDOW over a range: the slots that were not in WINDOW are changed (R77, R79, R167). -/
def answerOpenWindow (s : State) (p : List Byte) : Answer :=
  let first := (byteAt p 1).toNat
  let count := (byteAt p 2).toNat
  if first + count > 128 then refuse s .value
  else
    let changed := countSlots s first count fun sl => sl.context.state != .window
    doneWith
      (s.mapSlots fun i sl => if inRange first count i then openSlot (checkInputs s) sl else sl)
      (beBytes 1 changed ++ beBytes 1 (count - changed))

/-- CLOSE WINDOW over a range: the slots that were in WINDOW are changed (R78, R79, R168). -/
def answerCloseWindow (s : State) (p : List Byte) : Answer :=
  let first := (byteAt p 1).toNat
  let count := (byteAt p 2).toNat
  if first + count > 128 then refuse s .value
  else
    let changed := countSlots s first count fun sl => sl.context.state == .window
    doneWith
      (s.mapSlots fun i sl => if inRange first count i then closeSlot (halfAt p 3) sl else sl)
      (beBytes 1 changed ++ beBytes 1 (count - changed))

/-! ## Slot expectations -/

/-- The edit gate: the slot's context is in WINDOW (R43). -/
def editable (s : State) (i : Slot) : Bool := s.slots[i].context.state == .window

/-- SET SLOT ROLES (R42, R169). -/
def answerSetSlotRoles (s : State) (p : List Byte) : Answer :=
  match slotOf (byteAt p 1) with
  | none => refuse s .value
  | some i =>
    if !editable s i then refuse s .state
    else match rxRoleOf (byteAt p 2), txRoleOf (byteAt p 3) with
      | some rx, some tx =>
        if tx ≠ .originate ∧ measuresDelay s.slots[i].map then refuse s .value
        else done (s.modSlot i fun sl =>
          { sl with map := { sl.map with
              rxRole := rx, txRole := tx, originPort := byteAt p 4, originTrail := halfAt p 5 } })
      | _, _ => refuse s .value

/-- A new entry replaces the old one; the baselines are kept or cleared (R52). -/
def loadEntry (e : MapEntry) (keep : Bool) (m : SlotMap) : SlotMap :=
  { m with entry := some e
           workingBaseline := if keep then m.workingBaseline else none
           protectBaseline := if keep then m.protectBaseline else none }

/-- The reply data of LOAD MAP ENTRY: the fixed delay as stored, in FIXED mode (R170). -/
def loadData : DelayMode → List Byte
  | .fixed d => beBytes 3 d
  | _ => []

/-- LOAD MAP ENTRY (R52, R170). -/
def answerLoadMapEntry (s : State) (p : List Byte) : Answer :=
  match slotOf (byteAt p 1) with
  | none => refuse s .value
  | some i =>
    if !editable s i then refuse s .state
    else match matchModeOf p, routeCheckOf (byteAt p 3), delayModeOf p, profileIndexOf (byteAt p 5) with
      | some mode, some check, some delay, some k =>
        if delay ≠ .none ∧ s.slots[i].map.txRole ≠ .originate then refuse s .value
        else
          let e : MapEntry := { mode := mode, routeCheck := check, delay := delay, profile := k }
          doneWith
            (s.modSlot i fun sl => { sl with map := loadEntry e (yesNo (byteAt p 6)) sl.map }) (loadData delay)
      | _, _, _, _ => refuse s .value

/-- The entry emptied, both baselines cleared and the route list given back (R53, R66). -/
def clearEntry (m : SlotMap) : SlotMap :=
  { m with entry := none, workingBaseline := none, protectBaseline := none, route := [] }

/-- CLEAR MAP ENTRY (R53, R66, R171). -/
def answerClearMapEntry (s : State) (p : List Byte) : Answer :=
  match slotOf (byteAt p 1) with
  | none => refuse s .value
  | some i =>
    if !editable s i then refuse s .state
    else
      let free := pushHops s.freeHops s.slots[i].map.route
      doneWith
        { s.modSlot i (fun sl => { sl with map := clearEntry sl.map }) with freeHops := free }
        (beBytes 2 free.length)

/-- LINK ROUTE (R63, R64, R172): the old list is freed, then the new one allocated. -/
def answerLinkRoute (s : State) (p : List Byte) : Answer :=
  let n := (byteAt p 2).toNat
  match slotOf (byteAt p 1) with
  | none => refuse s .value
  | some i =>
    if !editable s i then refuse s .state
    else if n > 6 then refuse s .value
    else match hopsOf p n with
      | none => refuse s .value
      | some hops =>
        let free := pushHops s.freeHops s.slots[i].map.route
        if free.length < n then { state := s, outcome := .pool, data := beBytes 2 (freeCount s) }
        else
          let route := popHops free hops
          doneWith
            { s.modSlot i (fun sl => { sl with map := { sl.map with route := route } }) with
              freeHops := free.drop n }
            (beBytes 2 (free.length - n) ++ route.map fun h => BitVec.ofNat 8 h.index.val)

/-! ## Settings -/

/-- SET PROFILE (R55, R173). -/
def answerSetProfile (s : State) (p : List Byte) : Answer :=
  match profileIndexOf (byteAt p 1) with
  | none => refuse s .value
  | some k =>
    doneWith { s with profiles := s.profiles.set k (profileOfPayload p) } (profileBytes (profileOfPayload p))

/-- SET PROBING (R106, R174). -/
def answerSetProbing (s : State) (p : List Byte) : Answer :=
  let interval := max 1 (byteAt p 1).toNat
  let timeout := max 2 (byteAt p 2).toNat
  doneWith { s with probe := { s.probe with interval := interval, timeout := timeout } }
    (beBytes 1 interval ++ beBytes 1 timeout)

/-- The report settings of a SET REPORTING request; none when it is refused (R149, R175). -/
def reportSettingsOf (p : List Byte) : Option ReportSettings :=
  match sideOf (byteAt p 1), severityTableOf p with
  | some side, some table =>
    if nodeNumber (halfAt p 2) then
      some { side := side, destination := some (halfAt p 2), reportInfo := (byteAt p 4)[0]
             report := enablesOf (byteAt p 4), alertEnable := enablesOf (byteAt p 5), severity := table }
    else none
  | _, _ => none

/-- SET REPORTING: every setting is replaced together and ALERT is re-evaluated (R149, R175). -/
def answerSetReporting (s : State) (p : List Byte) : Answer :=
  match reportSettingsOf p with
  | none => refuse s .value
  | some settings => done { s with report := refreshAlert { s.report with settings := settings } }

/-! ## REVERIFY and the queries -/

/-- REVERIFY (R94, R176). -/
def answerReverify (s : State) (p : List Byte) : Answer :=
  match slotOf (byteAt p 1) with
  | none => refuse s .value
  | some i =>
    if beingChecked s.slots[i].context.state then done (s.modSlot i reverifySlot) else refuse s .state

/-- The presence bits of a trail record (R177). Bits 10 to 15, to which R177 gives no content, are 0 (DESIGN CHOICE, log entry
25). -/
def trailPresence (s : State) (i : Slot) : Nat :=
  let sl := s.slots[i]
  bitsToNat
    [sl.context.state == .settling, sl.context.lastCause.isSome, sl.tag.held.isSome,
      sl.tag.held.isSome && sl.map.entry.isSome, sl.tag.lastFault.isSome, sl.probe.average.isSome,
      sl.map.workingBaseline.isSome, sl.map.protectBaseline.isSome,
      (slotShift sl.map sl.probe sl.tag.heldProtect).isSome, (entryOf s.probe.table i).isSome]

/-- The flags byte of a trail record (R177). Bit 7, to which R177 gives no content, is 0 (DESIGN CHOICE, log entry 25). -/
def trailFlags (sl : SlotState) : Byte :=
  BitVec.ofNat 8 (bitsToNat
    [sl.map.entry.isSome, sl.tag.heldProtect == .protect, sl.context.defectNow, sl.context.lossMark,
      sl.context.findingPending, ((slotShift sl.map sl.probe sl.tag.heldProtect).map Prod.snd).getD false,
      (sl.tag.held.map HeldTag.windowFlag).getD false])

/-- The match result of a slot, present when it holds a tag and its entry is LOADED (R47). -/
def slotMatch (sl : SlotState) : Option MatchResult :=
  sl.map.entry.bind fun e => sl.tag.held.map fun h => matchResult e h.identity

/-- The 47-byte trail record of a slot (R177). Bits 3 to 7 of byte 1, to which R177 gives no content, are 0 (DESIGN CHOICE,
log entry 25). -/
def trailRecord (s : State) (i : Slot) : List Byte :=
  let sl := s.slots[i]
  let c := sl.context
  [BitVec.ofNat 8 i.val,
    BitVec.ofNat 8 ((if sl.map.rxRole = .terminate then 1 else 0) + 2 * txRoleCode sl.map.txRole),
    BitVec.ofNat 8 (stateCode c.state),
    BitVec.ofNat 8 (if c.state = .settling then causeCode (waitCause c.waitReason) else 0),
    BitVec.ofNat 8 ((c.lastCause.map causeCode).getD 0),
    trailFlags sl] ++
  beBytes 2 (trailPresence s i) ++
  (sl.tag.held.map fun h => identityBytes h.identity).getD (List.replicate 5 0) ++
  halfBytes ((sl.tag.held.map HeldTag.epoch).getD 0) ++
  optBytes 1 ((slotMatch sl).map matchCode) ++ optBytes 1 (sl.tag.lastFault.map faultCode) ++
  beBytes 2 c.settleTimer ++ beBytes 2 c.soakCount ++ beBytes 2 c.erroredCount ++
  beBytes 1 c.restartCount ++ beBytes 1 c.strikes ++ beBytes 2 c.defectTimer ++ beBytes 2 sl.probe.sampleCount ++
  optBytes 3 sl.probe.average ++ optBytes 3 (sl.probe.average.map oneWayDelay) ++
  optBytes 3 sl.map.workingBaseline ++ optBytes 3 sl.map.protectBaseline ++
  shiftBytes (((slotShift sl.map sl.probe sl.tag.heldProtect).map Prod.fst).getD 0) ++
  (match entryOf s.probe.table i with
    | some e => [e.number, if e.launch.isSome then 1 else 0]
    | none => [0, 0]) ++
  halfBytes sl.map.expectedEpoch

/-- QUERY TRAIL (R177). -/
def answerQueryTrail (s : State) (p : List Byte) : Answer :=
  match slotOf (byteAt p 1) with
  | none => refuse s .value
  | some i => doneWith s (trailRecord s i)

/-- A held tag in the tag layout: probe and echo bytes, check bytes, ignored bits and record positions from the route
count on are 00h (R178). -/
def heldTagBytes (h : HeldTag) : List Byte :=
  let nodes := (h.route.map halfBytes).flatten
  [Config.tagKind] ++ identityBytes h.identity ++ halfBytes h.epoch ++ [if h.windowFlag then 1 else 0] ++
  List.replicate 7 0 ++ [BitVec.ofNat 8 h.route.length, if h.overflow then 1 else 0] ++
  nodes ++ List.replicate (12 - nodes.length) 0 ++ [0, 0]

/-- An optional record after its form byte: a present byte, and the record when it is present (R178). -/
def presentRecord (form : Byte) (record : Option (List Byte)) : List Byte :=
  match record with
  | none => [form, 0]
  | some bytes => [form, 1] ++ bytes

/-- The tag record of a form (R178): none for a form code outside 00h to 03h. -/
def tagRecord (sl : SlotState) (form : Byte) : Option (List Byte) :=
  if form = 0 then some (presentRecord form (sl.tag.held.map heldTagBytes))
  else if form = 1 then
    some (presentRecord form (sl.tag.lastValid.map fun t => t.bytes ++ beBytes 4 t.stamp.toNat))
  else if form = 2 then
    some (presentRecord form (sl.tx.lastEmitted.map fun e => [BitVec.ofNat 8 (tagSourceCode e.source)] ++ e.bytes))
  else if form = 3 then
    some (presentRecord form (some ([if sl.map.txRole = .originate then 1 else 0, sl.map.originPort] ++
      halfBytes sl.map.originTrail ++ halfBytes sl.map.originEpoch)))
  else none

/-- QUERY TAG (R178). -/
def answerQueryTag (s : State) (p : List Byte) : Answer :=
  match slotOf (byteAt p 1) with
  | none => refuse s .value
  | some i =>
    match tagRecord s.slots[i] (byteAt p 2) with
    | none => refuse s .value
    | some data => doneWith s data

/-- A hop as QUERY ROUTE shows it (R67, R179). -/
def hopBytes (h : Hop) : List Byte :=
  [BitVec.ofNat 8 h.index.val] ++ halfBytes h.node ++ [BitVec.ofNat 8 (hopConditionCode h.condition)]

/-- QUERY ROUTE (R67, R179). -/
def answerQueryRoute (s : State) (p : List Byte) : Answer :=
  match slotOf (byteAt p 1) with
  | none => refuse s .value
  | some i =>
    doneWith s ([BitVec.ofNat 8 s.slots[i].map.route.length] ++ (s.slots[i].map.route.map hopBytes).flatten)

/-! ## READ STATUS and CLEAR DETECTED -/

/-- Writes bytes into the status data from a position on. -/
def writeData (data : List Byte) (at_ : Nat) (bs : List Byte) : List Byte :=
  data.take at_ ++ bs ++ data.drop (at_ + bs.length)

/-- Sets bits of status byte 4. -/
def orFlags (data : List Byte) (bits : Byte) : List Byte := writeData data 4 [byteAt data 4 ||| bits]

/-- The status data before any block has been read: 26 bytes, the last the revision (R166). -/
def emptyStatus : List Byte := List.replicate 25 0 ++ [Config.revision]

/-- A byte of one bit. -/
def oneBit (b : Bool) (k : Nat) : Byte := if b then BitVec.ofNat 8 (2 ^ k) else 0

/-- What one block's read adds to the status data (R166). -/
def statusRead (s : State) (data : List Byte) : Block → List Byte
  | .managementUnit =>
    writeData (orFlags (writeData data 0 (halfBytes (s.management.identity.getD 0)))
      (oneBit s.management.identity.isSome 0)) 5
      (beBytes 2 s.management.checkErrors ++ beBytes 2 s.management.commandDiscards ++
        beBytes 2 s.management.forwardDiscards)
  | .lineReceiver => writeData data 2 (beBytes 1 (alignCode s.receiver.line.align))
  | .dropReceiver => writeData data 3 (beBytes 1 (alignCode s.receiver.drop.align))
  | .dropTransmitter => orFlags data (oneBit (s.output.drop.timing == .localTimed) 1)
  | .lineTransmitter => orFlags data (oneBit (s.output.line.timing == .localTimed) 2)
  | .reportUnit =>
    writeData (orFlags data (oneBit s.report.alert 3 ||| oneBit s.report.seen.minor 4 |||
      oneBit s.report.seen.major 5 ||| oneBit s.report.seen.critical 6)) 17 (beBytes 1 s.report.queue.length)
  | .probeEngine =>
    writeData (writeData data 11 (beBytes 2 s.probe.lost ++ beBytes 2 s.probe.late ++ beBytes 2 s.probe.rejected))
      20 (beBytes 1 s.probe.rotationIndex.val)
  | .routePool => writeData data 18 (beBytes 2 (freeCount s))
  | .timebase => writeData data 21 (beBytes 4 s.timebase.periodClock.toNat)

/-- The clear that one block makes of its selected items (R150, R180). -/
def clearItems (s : State) (p : List Byte) : Block → State
  | .reportUnit =>
    let marked : PerSeverity := { minor := (byteAt p 1)[0], major := (byteAt p 1)[1], critical := (byteAt p 1)[2] }
    { s with report := refreshAlert { s.report with seen := clearSeen s.report.seen marked } }
  | .managementUnit =>
    { s with management := { s.management with
        checkErrors := if (byteAt p 1)[3] then 0 else s.management.checkErrors
        commandDiscards := if (byteAt p 1)[4] then 0 else s.management.commandDiscards
        forwardDiscards := if (byteAt p 1)[5] then 0 else s.management.forwardDiscards } }
  | .probeEngine =>
    { s with probe := { s.probe with
        lost := if (byteAt p 1)[6] then 0 else s.probe.lost
        late := if (byteAt p 1)[7] then 0 else s.probe.late
        rejected := if (byteAt p 2)[0] then 0 else s.probe.rejected } }
  | _ => s

/-! ## Taking requests -/

/-- The oldest waiting request of a side for a command. -/
def findRequest (s : State) (side : Side) (c : Command) : Option Request :=
  s.management.requests.find? fun r => r.side == side && r.command == c

/-- The waiting requests without the oldest one of a side for a command. -/
def dropRequest (rs : List Request) (side : Side) (c : Command) : List Request :=
  rs.eraseP fun r => r.side == side && r.command == c

/-- The owner takes the oldest waiting request of a side for a command; its outcome and data enter the reply buffer
within the event (R158, R159). Without such a request there is nothing to take. -/
def serve (s : State) (side : Side) (c : Command) (answer : State → List Byte → Answer) : State :=
  match findRequest s side c with
  | none => s
  | some r =>
    let a := answer s r.payload
    let rest := dropRequest a.state.management.requests side c
    let served := { a.state.management with requests := rest }
    { a.state with management := placeReply served r a.outcome a.data (c == .restart) }

/-- Whether a request waits for its part at a block. -/
def waitsFor (side : Side) (c : Command) (block : Block) (r : Request) : Bool :=
  r.side == side && r.command == c && r.todo.contains block

/-- Replaces the oldest request that waits for a block by its successor. -/
def replaceRequest (rs : List Request) (test : Request → Bool) (new : Request) : List Request :=
  match rs with
  | [] => []
  | r :: rest => if test r then new :: rest else r :: replaceRequest rest test new

/-- The read of one block for a waiting READ STATUS; the reply is built when the last one has been taken (R164,
R166). -/
def serveStatus (s : State) (side : Side) (block : Block) : State :=
  match s.management.requests.find? (waitsFor side .readStatus block) with
  | none => s
  | some r =>
    let data := statusRead s (if r.data = [] then emptyStatus else r.data) block
    let left := { r with todo := r.todo.erase block, data := data }
    if left.todo = [] then
      let rest := s.management.requests.eraseP (waitsFor side .readStatus block)
      { s with management := placeReply { s.management with requests := rest } r .done data false }
    else
      { s with management := { s.management with
          requests := replaceRequest s.management.requests (waitsFor side .readStatus block) left } }

/-- Whether a CLEAR DETECTED waits for its part at a block, or selects nothing and waits for its reply alone. -/
def waitsForClear (side : Side) (block : Block) (r : Request) : Bool :=
  r.side == side && r.command == .clearDetected && (r.todo.contains block || r.todo.isEmpty)

/-- The clear at one block for a waiting CLEAR DETECTED; the reply is built when the last one has been taken
(R180). -/
def serveClear (s : State) (side : Side) (block : Block) : State :=
  match s.management.requests.find? (waitsForClear side block) with
  | none => s
  | some r =>
    let left := { r with todo := r.todo.erase block }
    let cleared := if r.todo.contains block then clearItems s r.payload block else s
    if left.todo = [] then
      let rest := s.management.requests.eraseP (waitsForClear side block)
      { cleared with management := placeReply { cleared.management with requests := rest } r .done [] false }
    else
      { cleared with management := { cleared.management with
          requests := replaceRequest s.management.requests (waitsForClear side block) left } }

end Sys2Proof.Machine
end

