-- ==== Sys2Proof/Machine/Commands.lean ====
section
/-! DEFINITION. The commands of the management channel, each taken by its owner as one event (R158, R164 to R181). -/

namespace Sys2Proof.Machine

/-- SET NODE IDENTITY (R165). -/
def execSetNodeIdentity (side : Side) (s : State) : Host.Outcome State Fault Refusal :=
  act s fun s => serve s side .setNodeIdentity answerSetNodeIdentity

/-- OPEN WINDOW (R77, R79, R167). -/
def execOpenWindow (side : Side) (s : State) : Host.Outcome State Fault Refusal :=
  act s fun s => serve s side .openWindow answerOpenWindow

/-- CLOSE WINDOW (R78, R79, R168). -/
def execCloseWindow (side : Side) (s : State) : Host.Outcome State Fault Refusal :=
  act s fun s => serve s side .closeWindow answerCloseWindow

/-- SET SLOT ROLES (R42, R169). -/
def execSetSlotRoles (side : Side) (s : State) : Host.Outcome State Fault Refusal :=
  act s fun s => serve s side .setSlotRoles answerSetSlotRoles

/-- LOAD MAP ENTRY (R52, R170). -/
def execLoadMapEntry (side : Side) (s : State) : Host.Outcome State Fault Refusal :=
  act s fun s => serve s side .loadMapEntry answerLoadMapEntry

/-- CLEAR MAP ENTRY (R53, R66, R171). -/
def execClearMapEntry (side : Side) (s : State) : Host.Outcome State Fault Refusal :=
  act s fun s => serve s side .clearMapEntry answerClearMapEntry

/-- LINK ROUTE (R63, R64, R172). -/
def execLinkRoute (side : Side) (s : State) : Host.Outcome State Fault Refusal :=
  act s fun s => serve s side .linkRoute answerLinkRoute

/-- SET PROFILE (R55, R173). -/
def execSetProfile (side : Side) (s : State) : Host.Outcome State Fault Refusal :=
  act s fun s => serve s side .setProfile answerSetProfile

/-- SET PROBING (R106, R174). -/
def execSetProbing (side : Side) (s : State) : Host.Outcome State Fault Refusal :=
  act s fun s => serve s side .setProbing answerSetProbing

/-- SET REPORTING (R149, R175). -/
def execSetReporting (side : Side) (s : State) : Host.Outcome State Fault Refusal :=
  act s fun s => serve s side .setReporting answerSetReporting

/-- REVERIFY (R94, R176). -/
def execReverify (side : Side) (s : State) : Host.Outcome State Fault Refusal :=
  act s fun s => serve s side .reverify answerReverify

/-- QUERY TRAIL (R177). -/
def execQueryTrail (side : Side) (s : State) : Host.Outcome State Fault Refusal :=
  act s fun s => serve s side .queryTrail answerQueryTrail

/-- QUERY TAG (R178). -/
def execQueryTag (side : Side) (s : State) : Host.Outcome State Fault Refusal :=
  act s fun s => serve s side .queryTag answerQueryTag

/-- QUERY ROUTE (R67, R179). -/
def execQueryRoute (side : Side) (s : State) : Host.Outcome State Fault Refusal :=
  act s fun s => serve s side .queryRoute answerQueryRoute

/-- READ STATUS at one block (R166). -/
def execReadStatus (side : Side) (block : Block) (s : State) : Host.Outcome State Fault Refusal :=
  act s fun s => serveStatus s side block

/-- CLEAR DETECTED at one block (R150, R180). -/
def execClearDetected (side : Side) (block : Block) (s : State) : Host.Outcome State Fault Refusal :=
  act s fun s => serveClear s side block

/-- RESTART: the outcome is DONE, and the reply is marked as the one whose last byte makes the restart take effect
(R163, R181). -/
def execRestart (side : Side) (s : State) : Host.Outcome State Fault Refusal :=
  act s fun s => serve s side .restart fun s _ => done s

end Sys2Proof.Machine
end

