-- ==== Sys2Proof/Machine/Handoffs.lean ====
section
/-! DEFINITION. The events that one block hands to another, each taken as an event of its own: CYCLE_REPORT, STREAM_LOSS,
ECHO_RECEIPT, ACCEPTED_SAMPLE, WITHDRAW_REQUEST, FILTER_RESET_REQUEST, BASELINE_WRITE, FINDING. Without such an event
in flight there is nothing to take. -/

namespace Sys2Proof.Machine

/-- CYCLE_REPORT (R74, R76, R81, R84, R90, R94). -/
def execCycleReport (i : Slot) (s : State) : Host.Outcome State Fault Refusal :=
  act s fun s =>
    match s.slots[i].inFlight.reports with
    | [] => s
    | r :: rest => s.modSlot i fun sl =>
        takeReport (checkInputs s) i r { sl with inFlight := { sl.inFlight with reports := rest } }

/-- STREAM_LOSS (R75). -/
def execStreamLoss (i : Slot) (s : State) : Host.Outcome State Fault Refusal :=
  act s fun s =>
    if s.slots[i].inFlight.losses = 0 then s
    else s.modSlot i fun sl =>
      takeStreamLoss (checkInputs s) i
        { sl with inFlight := { sl.inFlight with losses := sl.inFlight.losses - 1 } }

/-- ECHO_RECEIPT (R115, R116, R120). -/
def execEchoReceipt (i : Slot) (s : State) : Host.Outcome State Fault Refusal :=
  act s fun s =>
    match s.slots[i].inFlight.echoes with
    | [] => s
    | h :: rest =>
      takeHandoff (s.modSlot i fun sl => { sl with inFlight := { sl.inFlight with echoes := rest } }) i h

/-- ACCEPTED_SAMPLE (R92). -/
def execAcceptedSample (i : Slot) (s : State) : Host.Outcome State Fault Refusal :=
  act s fun s =>
    if s.slots[i].inFlight.samples = 0 then s
    else s.modSlot i fun sl =>
      takeSample (checkInputs s) i
        { sl with inFlight := { sl.inFlight with samples := sl.inFlight.samples - 1 } }

/-- WITHDRAW_REQUEST (R113). -/
def execWithdrawRequest (i : Slot) (s : State) : Host.Outcome State Fault Refusal :=
  act s fun s =>
    if s.slots[i].inFlight.withdraws = 0 then s
    else withdrawSlot
      (s.modSlot i fun sl => { sl with inFlight := { sl.inFlight with withdraws := sl.inFlight.withdraws - 1 } }) i

/-- FILTER_RESET_REQUEST (R114). -/
def execFilterResetRequest (i : Slot) (s : State) : Host.Outcome State Fault Refusal :=
  act s fun s =>
    match s.slots[i].inFlight.filterResets with
    | [] => s
    | _ :: rest => s.modSlot i fun sl =>
      { sl with probe := resetFilter sl.probe
                inFlight := { sl.inFlight with filterResets := rest } }

/-- BASELINE_WRITE: the captured value is written to its side's baseline (R77). -/
def execBaselineWrite (i : Slot) (s : State) : Host.Outcome State Fault Refusal :=
  act s fun s =>
    match s.slots[i].inFlight.baselines with
    | [] => s
    | (side, value) :: rest => s.modSlot i fun sl =>
        { sl with map := writeBaseline sl.map side value
                  inFlight := { sl.inFlight with baselines := rest } }

/-- FINDING (R140, R143, R144, R145). -/
def execFinding (i : Slot) (s : State) : Host.Outcome State Fault Refusal :=
  act s fun s =>
    match s.slots[i].inFlight.findings with
    | [] => s
    | f :: rest =>
      takeFinding (s.modSlot i fun sl => { sl with inFlight := { sl.inFlight with findings := rest } }) f

end Sys2Proof.Machine
end

