-- ==== Sys2Proof/Machine/Management.lean ====
section
/-! DEFINITION. The management channel's events: MANAGEMENT_FRAME, ARBITER_FRAME_START, ARBITER_FRAME_END and
NOTICE_START. -/

namespace Sys2Proof.Machine

/-- MANAGEMENT_FRAME: the oldest completed frame of a channel receiver is judged (R154, R156, R157, R158, R164). -/
def execManagementFrame (side : Side) (s : State) : Host.Outcome State Fault Refusal :=
  act s fun s =>
    match (s.management.channel.get side).completed with
    | [] => s
    | bs :: rest =>
      let channel := s.management.channel.set side { s.management.channel.get side with completed := rest }
      { s with management := judgeFrame { s.management with channel := channel } side bs }

/-- An idle arbiter starts the forward frame that is HOLDING, else the reply that is HOLDING (R160). -/
def startBuffered (s : State) (output : Side) (skip : Nat) : State :=
  match s.management.forward.get output, s.management.reply.get output with
  | .holding bs, _ =>
    let management := { s.management with forward := s.management.forward.set output .sending }
    startSending { s with management := management } output skip .forward bs
  | _, .holding bs isRestart =>
    let management := { s.management with reply := s.management.reply.set output (.sending isRestart) }
    startSending { s with management := management } output skip .reply bs
  | _, _ => s

/-- ARBITER_FRAME_START (R157, R158, R160). -/
def execArbiterFrameStart (output : Side) (skip : Nat) (s : State) : Host.Outcome State Fault Refusal :=
  act s fun s => if canStart s output skip then startBuffered s output skip else s

/-- The last byte of the arbiter's frame is placed and its buffer becomes FREE; the last byte of a RESTART reply is
RESTART_TAKES_EFFECT's (R157, R158, R160, R163). -/
def endSending (s : State) (output : Side) : State :=
  match endingFrame s output with
  | none => s
  | some a =>
    let placed := placeLast s output a
    match a.source with
    | .notice => placed
    | .forward =>
      { placed with management := { placed.management with forward := s.management.forward.set output .free } }
    | .reply =>
      if s.management.reply.get output = .sending true then s
      else { placed with management := { placed.management with reply := s.management.reply.set output .free } }

/-- ARBITER_FRAME_END (R157, R158, R160). -/
def execArbiterFrameEnd (output : Side) (s : State) : Host.Outcome State Fault Refusal :=
  act s fun s => endSending s output

/-- NOTICE_START (R146, R147, R161). -/
def execNoticeStart (skip : Nat) (s : State) : Host.Outcome State Fault Refusal :=
  act s fun s => startNotice s skip

end Sys2Proof.Machine
end

