-- ==== Sys2Proof/Machine/Restart.lean ====
section
/-! DEFINITION. Restart: RESTART_TAKES_EFFECT and the restart events of the blocks (R163, R181, R182). -/

namespace Sys2Proof.Machine

/-- Whether the last byte of a side's RESTART reply has been placed (R163). -/
def restartReplyEnded (m : ManagementUnit) (side : Side) : Bool :=
  m.reply.get side == .sending true &&
    match m.arbiter.get side with
    | some a => a.source == .reply && a.rest.isEmpty
    | none => false

/-- The management unit when the restart of a side takes effect: buffers FREE, both arbiters idle, counts 0; the outcomes
of the requests in the RESERVED interval are discarded. A RESTART reply of the other side that has ended by then still
has its own restart (R163, R182). -/
def restartManagement (m : ManagementUnit) (side : Side) : ManagementUnit :=
  { m with
    restartEnded := (m.restartEnded.set side false).set (opposite side)
      (m.restartEnded.get (opposite side) || restartReplyEnded m (opposite side))
    forward := ⟨.free, .free⟩
    reply := ⟨.free, .free⟩
    arbiter := ⟨none, none⟩
    checkErrors := 0
    commandDiscards := 0
    forwardDiscards := 0
    noticeSequence := 0
    requests := m.requests.map fun r => { r with live := false } }

/-- The restart reaches each block as an event of its own (R181). -/
def deliverRestarts (s : State) : State :=
  { s.mapSlots (fun _ sl => { sl with inFlight := { sl.inFlight with restarts := sl.inFlight.restarts + 1 } }) with
    restartsDue :=
      { tagReceiver := s.restartsDue.tagReceiver + 1, lineTransmitter := s.restartsDue.lineTransmitter + 1
        probeEngine := s.restartsDue.probeEngine + 1, reportUnit := s.restartsDue.reportUnit + 1 } }

/-- The restart of a side takes effect: the other output's arbiter stops after the bytes that it has placed by then
(R163). -/
def restartNow (s : State) (side : Side) (sent : Nat) : State :=
  let reached := reachPositions s (opposite side) (outputPositionsBy (s.output.get (opposite side)) sent)
  deliverRestarts { reached with management := restartManagement reached.management side }

/-- The restart takes effect when the last byte of the RESTART reply is placed, also when the other side's restart took
effect at that moment (R163, R182). -/
def takeEffect (s : State) (side : Side) (sent : Nat) : State :=
  if s.management.restartEnded.get side then restartNow s side sent
  else match endingFrame s side with
    | none => s
    | some a =>
      if a.source = .reply ∧ s.management.reply.get side = .sending true then
        restartNow (placeLast s side a) side sent
      else s

/-- RESTART_TAKES_EFFECT (R163, R181, R182). -/
def execRestartTakesEffect (moment : RestartMoment) (s : State) : Host.Outcome State Fault Refusal :=
  act s fun s => takeEffect s moment.side moment.sent

/-- CONTEXT_RESTART (R103). -/
def execContextRestart (i : Slot) (s : State) : Host.Outcome State Fault Refusal :=
  act s fun s =>
    if s.slots[i].inFlight.restarts = 0 then s
    else
      let stillQueued := s.restartsDue.reportUnit == 0 && hasRecord s.report.queue i
      s.modSlot i fun sl =>
        restartSlot stillQueued { sl with inFlight := { sl.inFlight with restarts := sl.inFlight.restarts - 1 } }

/-- TAG_RECEIVER_RESTART: every slot's tag state takes the value of R31, which is the power-on value in every row. -/
def execTagReceiverRestart (s : State) : Host.Outcome State Fault Refusal :=
  act s fun s =>
    if s.restartsDue.tagReceiver = 0 then s
    else
      { s.mapSlots (fun _ sl => { sl with tag := .reset }) with
        restartsDue := { s.restartsDue with tagReceiver := s.restartsDue.tagReceiver - 1 } }

/-- LINE_TRANSMITTER_RESTART: every last emitted tag is emptied; the cycle in progress keeps its values (R38). -/
def execLineTransmitterRestart (s : State) : Host.Outcome State Fault Refusal :=
  act s fun s =>
    if s.restartsDue.lineTransmitter = 0 then s
    else
      { s.mapSlots (fun _ sl => { sl with tx := { sl.tx with lastEmitted := none } }) with
        restartsDue := { s.restartsDue with lineTransmitter := s.restartsDue.lineTransmitter - 1 } }

/-- PROBE_ENGINE_RESTART: the probe settings are kept, all else takes its power-on value (R124). -/
def execProbeEngineRestart (s : State) : Host.Outcome State Fault Refusal :=
  act s fun s =>
    if s.restartsDue.probeEngine = 0 then s
    else
      { s.mapSlots (fun _ sl => { sl with probe := .reset }) with
        probe := { ProbeEngine.reset with
          interval := s.probe.interval, timeout := s.probe.timeout, boundariesDue := s.probe.boundariesDue }
        restartsDue := { s.restartsDue with probeEngine := s.restartsDue.probeEngine - 1 } }

/-- REPORT_UNIT_RESTART: the finding queue is emptied and every mirror cleared; flags and settings are kept (R97,
R151). -/
def execReportUnitRestart (s : State) : Host.Outcome State Fault Refusal :=
  act s fun s =>
    if s.restartsDue.reportUnit = 0 then s
    else
      { s.mapSlots (fun _ sl => { sl with context := { sl.context with findingPending := false } }) with
        report := { s.report with queue := [] }
        restartsDue := { s.restartsDue with reportUnit := s.restartsDue.reportUnit - 1 } }

end Sys2Proof.Machine
end

