-- ==== Sys2Proof/Machine/Streams.lean ====
section
/-! DEFINITION. The carrier streams: HUNT_CANDIDATE, CONFIRM_FRAME, LOCKED_FRAME_JUDGED, LOCAL_FRAME_START,
TRANSMIT_CYCLE_START and TRANSMIT_CYCLE_COMPLETE. -/

namespace Sys2Proof.Machine

/-- HUNT_CANDIDATE: a receiver in HUNT searches its input (R6). -/
def execHuntCandidate (side : Side) (input : List Byte) (s : State) : Host.Outcome State Fault Refusal :=
  act s fun s =>
    match (s.receiver.get side).align with
    | .hunt => { s with receiver := s.receiver.set side (huntReceiver (s.receiver.get side) input) }
    | _ => s

/-- CONFIRM_FRAME: a receiver in CONFIRM reads the frame after its candidate (R7). -/
def execConfirmFrame (side : Side) (word : Vector Byte 4) (phase : Byte) (s : State) :
    Host.Outcome State Fault Refusal :=
  act s fun s =>
    match (s.receiver.get side).align with
    | .confirm start p =>
      { s with receiver := s.receiver.set side (confirmReceiver (s.receiver.get side) start p word phase) }
    | _ => s

/-- A frame in LOCKED on one side (R8). -/
def lockedFrame (s : State) (side : Side) (f : Frame) (sent : Nat) : State :=
  match side with
  | .line => lineFrame s f sent
  | .drop => dropFrame s f sent

/-- LOCKED_FRAME_JUDGED: a frame in LOCKED is judged and delivered, or loses alignment (R8 to R13, R16). -/
def execLockedFrameJudged (side : Side) (arrival : Arrival) (s : State) : Host.Outcome State Fault Refusal :=
  act s fun s =>
    match (s.receiver.get side).align with
    | .locked => lockedFrame s side arrival.frame arrival.sent
    | _ => s

/-- LOCAL_FRAME_START: an output in LOCAL starts a frame at a stamp that is a multiple of 512 (R15). -/
def execLocalFrameStart (output : Side) (s : State) : Host.Outcome State Fault Refusal :=
  act s fun s => if localFrameReady s output then startLocalFrame s output else s

/-- TRANSMIT_CYCLE_START (R32, R110, R121). -/
def execTransmitCycleStart (s : State) : Host.Outcome State Fault Refusal := act s startCycle

/-- TRANSMIT_CYCLE_COMPLETE: the completed cycle replaces each slot's last emitted tag (R37). -/
def execTransmitCycleComplete (s : State) : Host.Outcome State Fault Refusal :=
  act s completeCycle

end Sys2Proof.Machine
end

