-- ==== Sys2Proof/Machine/Dispatch.lean ====
section
/-! DEFINITION. The effect of each step of the part on everything but the queue: one arm per row of the table. -/

namespace Sys2Proof.Machine

def exec (i : Instr) (s : State) : Host.Outcome State Fault Refusal :=
  match i with
  | .powerOn => Sys2Proof.Machine.execPowerOn s
  | .localPeriodBoundary target => Sys2Proof.Machine.execLocalPeriodBoundary target s
  | .settleLimitReached slot => Sys2Proof.Machine.execSettleLimitReached slot s
  | .soakEnd slot => Sys2Proof.Machine.execSoakEnd slot s
  | .defectHoldReached slot => Sys2Proof.Machine.execDefectHoldReached slot s
  | .intervalCountExpiry => Sys2Proof.Machine.execIntervalCountExpiry s
  | .probeTimeout index => Sys2Proof.Machine.execProbeTimeout index s
  | .huntCandidate side input => Sys2Proof.Machine.execHuntCandidate side input s
  | .confirmFrame side word phase => Sys2Proof.Machine.execConfirmFrame side word phase s
  | .lockedFrameJudged side arrival => Sys2Proof.Machine.execLockedFrameJudged side arrival s
  | .cycleReport slot => Sys2Proof.Machine.execCycleReport slot s
  | .streamLoss slot => Sys2Proof.Machine.execStreamLoss slot s
  | .transmitCycleStart => Sys2Proof.Machine.execTransmitCycleStart s
  | .transmitCycleComplete => Sys2Proof.Machine.execTransmitCycleComplete s
  | .localFrameStart output => Sys2Proof.Machine.execLocalFrameStart output s
  | .echoReceipt slot => Sys2Proof.Machine.execEchoReceipt slot s
  | .acceptedSample slot => Sys2Proof.Machine.execAcceptedSample slot s
  | .withdrawRequest slot => Sys2Proof.Machine.execWithdrawRequest slot s
  | .filterResetRequest slot => Sys2Proof.Machine.execFilterResetRequest slot s
  | .baselineWrite slot => Sys2Proof.Machine.execBaselineWrite slot s
  | .finding slot => Sys2Proof.Machine.execFinding slot s
  | .noticeStart skip => Sys2Proof.Machine.execNoticeStart skip s
  | .arbiterFrameStart output skip => Sys2Proof.Machine.execArbiterFrameStart output skip s
  | .arbiterFrameEnd output => Sys2Proof.Machine.execArbiterFrameEnd output s
  | .managementFrame side => Sys2Proof.Machine.execManagementFrame side s
  | .setNodeIdentity side => Sys2Proof.Machine.execSetNodeIdentity side s
  | .readStatus side block => Sys2Proof.Machine.execReadStatus side block s
  | .openWindow side => Sys2Proof.Machine.execOpenWindow side s
  | .closeWindow side => Sys2Proof.Machine.execCloseWindow side s
  | .setSlotRoles side => Sys2Proof.Machine.execSetSlotRoles side s
  | .loadMapEntry side => Sys2Proof.Machine.execLoadMapEntry side s
  | .clearMapEntry side => Sys2Proof.Machine.execClearMapEntry side s
  | .linkRoute side => Sys2Proof.Machine.execLinkRoute side s
  | .setProfile side => Sys2Proof.Machine.execSetProfile side s
  | .setProbing side => Sys2Proof.Machine.execSetProbing side s
  | .setReporting side => Sys2Proof.Machine.execSetReporting side s
  | .reverify side => Sys2Proof.Machine.execReverify side s
  | .queryTrail side => Sys2Proof.Machine.execQueryTrail side s
  | .queryTag side => Sys2Proof.Machine.execQueryTag side s
  | .queryRoute side => Sys2Proof.Machine.execQueryRoute side s
  | .clearDetected side block => Sys2Proof.Machine.execClearDetected side block s
  | .restart side => Sys2Proof.Machine.execRestart side s
  | .restartTakesEffect moment => Sys2Proof.Machine.execRestartTakesEffect moment s
  | .contextRestart slot => Sys2Proof.Machine.execContextRestart slot s
  | .refclkTick => Sys2Proof.Machine.execRefclkTick s
  | .resetnAsserted => Sys2Proof.Machine.execResetnAsserted s
  | .tagReceiverRestart => Sys2Proof.Machine.execTagReceiverRestart s
  | .lineTransmitterRestart => Sys2Proof.Machine.execLineTransmitterRestart s
  | .probeEngineRestart => Sys2Proof.Machine.execProbeEngineRestart s
  | .reportUnitRestart => Sys2Proof.Machine.execReportUnitRestart s

end Sys2Proof.Machine
end

