-- ==== Sys2Proof/Safety.lean ====
section
/-! DEFINITION. What the claims mean by a state in order: the invariants of the part, and what a step leaves alone. -/

namespace Sys2Proof.Machine

/-! ## What a step leaves alone -/

/-- Nothing differs but the state of one slot. -/
def OnlySlot (i : Slot) (s t : State) : Prop :=
  t = { s with slots := t.slots } ∧ ∀ j : Slot, j ≠ i → t.slots[j] = s.slots[j]

/-- Nothing of a slot differs but its context and the events in flight. -/
def OnlyContext (a b : SlotState) : Prop := b = { a with context := b.context, inFlight := b.inFlight }

/-- Nothing differs but the state of one slot, which becomes the one given. -/
def SlotBecomes (i : Slot) (s t : State) (sl : SlotState) : Prop := OnlySlot i s t ∧ t.slots[i] = sl

/-- A slot whose context has taken a local period boundary, before the boundary's effect. -/
def boundaryTaken (sl : SlotState) : SlotState :=
  { sl with inFlight := { sl.inFlight with boundaries := sl.inFlight.boundaries - 1 } }

/-- When a report counts as defect (R74; log entry 24 where R99 meets it). -/
def countsAsDefect (s : State) (i : Slot) (r : CycleReport) : Prop :=
  r.forwardDefectSeen = true ∨ r.tagLoss = true ∨ (r.held = none ∧ s.slots[i].context.lossMark = true) ∨
    s.receiver.line.align ≠ .locked

/-- The slot once the report has been taken and judged for defect, before its effect on the state: defect now follows the
judgement, and the stream-loss mark clears while the line receiver is in LOCKED (R74). -/
def judgedSlot (s : State) (i : Slot) (rest : List CycleReport) (defect : Bool) : SlotState :=
  { s.slots[i] with
    context := { s.slots[i].context with
      defectNow := defect
      lossMark := if s.receiver.line.align = .locked then false else s.slots[i].context.lossMark }
    inFlight := { s.slots[i].inFlight with reports := rest } }

/-- The oldest waiting request of a side for a command has been answered: it waits no more, and its reply with the node
identity as it stands after the command is in the side's reply buffer, unless a restart has discarded its outcome
(R158, R159, R182). -/
def Replied (side : Side) (c : Command) (r : Request) (outcome : ReplyOutcome) (data : List Byte) (isRestart : Bool)
    (s t : State) : Prop :=
  t.management.requests = s.management.requests.eraseP (fun q => q.side == side && q.command == c) ∧
  (r.live = true → t.management.reply = s.management.reply.set side
    (.holding (replyFrame t.management.identity r.source r.sequence r.payload outcome data) isRestart)) ∧
  (r.live = false → t.management.reply = s.management.reply)

/-- Nothing of the management unit differs but the waiting requests and the reply buffers. -/
def OnlyReplies (a b : ManagementUnit) : Prop := b = { a with requests := b.requests, reply := b.reply }

/-- A refused command changes nothing but its reply (R164). -/
def Refused (side : Side) (c : Command) (r : Request) (outcome : ReplyOutcome) (data : List Byte) (s t : State) : Prop :=
  Replied side c r outcome data false s t ∧ t = { s with management := t.management } ∧
  OnlyReplies s.management t.management

/-- How a receiver in LOCKED that goes by phase `p` takes a frame that it delivers: as a good frame, a slip or one of
the first two misses, with the miss count and the phase that it then holds (R8). -/
def TakenAs (p : Phase) (missCount : Nat) (f : Frame) (slipped : Bool) (miss : Nat) (ph : Phase) : Prop :=
  (f.word = Config.alignmentWord ∧ f.phase.toNat = (p.toNat + 1) % 32 ∧ slipped = false ∧ miss = 0 ∧ ph = p + 1) ∨
  (f.word = Config.alignmentWord ∧ f.phase.toNat < 32 ∧ f.phase.toNat ≠ (p.toNat + 1) % 32 ∧ slipped = true ∧
    miss = 0 ∧ ph = f.phase.setWidth 5) ∨
  ((f.word ≠ Config.alignmentWord ∨ 31 < f.phase.toNat) ∧ missCount < 2 ∧ slipped = false ∧ miss = missCount + 1 ∧
    ph = p + 1)

/-- A frame start at a position of an input: the alignment word and a phase of 0..31 (R6). -/
def FrameStartAt (input : List Byte) (k : Nat) : Prop :=
  input[k]? = some 0xD3 ∧ input[k + 1]? = some 0x2E ∧ input[k + 2]? = some 0x71 ∧ input[k + 3]? = some 0x0C ∧
  ∃ b : Byte, input[k + 4]? = some b ∧ b.toNat < 32

/-- A slot wants a probe: its context is in the given state, its entry measures delay, it originates, and the probe table
holds no entry for it (R107). -/
def Wants (s : State) (state : CheckState) (i : Slot) : Prop :=
  s.slots[i].context.state = state ∧ (∃ e, s.slots[i].map.entry = some e ∧ e.delay ≠ .none) ∧
  s.slots[i].map.txRole = .originate ∧ ∀ k : Fin 8, ∀ e, s.probe.table[k] = some e → e.slot ≠ i

/-- A slot is the first, from the one past the rotation index and with wrap-around, that wants a probe in a state
(R108). -/
def FirstWanting (s : State) (state : CheckState) (i : Slot) : Prop :=
  Wants s state i ∧ ∃ d : Slot, i = s.probe.rotationIndex + 1 + d ∧
    ∀ d' : Slot, d' < d → ¬ Wants s state (s.probe.rotationIndex + 1 + d')

/-- The state after the countdown of a local period boundary at the probe engine: every entry has one period less,
those that reach 0 have timed out and are counted lost, and a probe field with the number of one of them is absent
(R109, R112). -/
def CountedDown (s c : State) : Prop :=
  (∀ k : Fin 8, c.probe.table[k] = s.probe.table[k].bind fun e =>
    if e.remaining ≤ 1 then none else some { e with remaining := e.remaining - 1 }) ∧
  c.probe.lost =
    min 65535 (s.probe.lost +
      ((List.finRange 8).filter fun k => s.probe.table[k].any fun e => decide (e.remaining ≤ 1)).length) ∧
  (∀ i : Slot, ∃ field, c.slots[i] = { s.slots[i] with probe := { s.slots[i].probe with field := field } } ∧
    ((∃ f, s.slots[i].probe.field = some f ∧
        ∃ k : Fin 8, ∃ e, s.probe.table[k] = some e ∧ e.remaining ≤ 1 ∧ e.slot = i ∧ e.number = f.number) →
      field = none) ∧
    (¬ (∃ f, s.slots[i].probe.field = some f ∧
        ∃ k : Fin 8, ∃ e, s.probe.table[k] = some e ∧ e.remaining ≤ 1 ∧ e.slot = i ∧ e.number = f.number) →
      field = s.slots[i].probe.field)) ∧
  c = { s with
    slots := c.slots
    probe := { s.probe with
      table := c.probe.table, lost := c.probe.lost, boundariesDue := s.probe.boundariesDue - 1 } }

/-- An output frame that still has a management byte position free after `skip` idle ones (R160). -/
def HasPosition (s : State) (output : Side) (f : OutFrame) (skip : Nat) : Prop :=
  (s.output.get output).frame = some f ∧ f.cut = none ∧ f.placed.length + skip < 4

/-- An idle arbiter has started a frame: after `skip` positions of 00h its byte 0 stands in the output frame, and the arbiter
holds the rest (R160). -/
def StartedSending (s t : State) (output : Side) (f : OutFrame) (skip : Nat) (source : FrameSource) (bs : List Byte) :
    Prop :=
  t.output = s.output.set output { s.output.get output with
    frame := some { f with placed := f.placed ++ List.replicate skip 0 ++ bs.take 1 } } ∧
  t.management.arbiter = s.management.arbiter.set output (some { source := source, rest := bs.drop 1 })

/-- What an arbiter places in `n` management byte positions, and the arbiter after them: 00h when it is idle, else the next
bytes of its frame, and 00h once the frame has ended (R160). -/
def Fills (before : Option Sending) (n : Nat) (bs : List Byte) (after : Option Sending) : Prop :=
  (before = none → bs = List.replicate n 0 ∧ after = none) ∧
  ∀ x, before = some x →
    bs = (x.rest ++ List.replicate n 0).take n ∧ after = some { source := x.source, rest := x.rest.drop n }

/-- How many bytes of an output frame have been sent when an operand says `sent`: no fewer than lie before the management
byte placed last, nor than lie up to the last tag byte once the frame's tag cycle has been recorded as complete (R3, R37,
R160). -/
def SentBy (f : OutFrame) (sent : Nat) : Nat :=
  max sent (max (if f.placed = [] then 0 else 5 + f.placed.length) (if f.tagsSent = true then 446 else 0))

/-- How many of the positions at bytes 5 to 8 an output frame has yet to reach when `sent` of its bytes have been sent
(R160). -/
def toReach (f : OutFrame) (sent : Nat) : Nat :=
  if f.cut = none then ((List.range 4).filter fun k => decide (f.placed.length ≤ k ∧ 5 + k < SentBy f sent)).length else 0

/-- An output frame `f` has ended as `g` when `sent` of its bytes had been sent: the positions reached by then have their
bytes from the arbiter, and it is cut off there unless it was sent whole (R14, R16, R160). -/
def Ended (before : Option Sending) (sent : Nat) (f g : OutFrame) (after : Option Sending) : Prop :=
  ∃ bs, Fills before (toReach f sent) bs after ∧ g = { f with placed := f.placed ++ bs, cut := g.cut } ∧
    (f.cut ≠ none ∨ 250304 ≤ sent → g.cut = f.cut) ∧
    (f.cut = none → sent < 250304 → g.cut = some (SentBy f sent))

/-- The frame that an output was sending has ended as `last` when `sent` of its bytes had been sent, and its arbiter goes
on from there (R160). -/
def EndedOutput (s t : State) (output : Side) (sent : Nat) (last : Option OutFrame) : Prop :=
  ((s.output.get output).frame = none →
    last = none ∧ t.management.arbiter.get output = s.management.arbiter.get output) ∧
  ∀ f, (s.output.get output).frame = some f → ∃ g, last = some g ∧
    Ended (s.management.arbiter.get output) sent f g (t.management.arbiter.get output)

/-- How many bytes line-out has sent of its frame when an operand says `sent` (R37, R160). -/
def LineSentBy (s : State) (sent : Nat) : Nat :=
  match s.output.line.frame with
  | none => sent
  | some f => SentBy f sent

/-- A slot after line-out's transmit tag cycle has been cut short when `sent` bytes of its frame had been sent: a frame with
the phase-31 bytes leaves a complete tag only where the slot's tag byte, byte 64 + 3 * i, had been emitted (R17, R37). -/
def SlotAtCut (s : State) (sent : Nat) (i : Slot) : SlotState :=
  { s.slots[i] with tx := { s.slots[i].tx with
      completed := if s.lineTx.ending = true ∧ LineSentBy s sent ≤ 64 + 3 * i.val then none
        else s.slots[i].tx.completed } }

/-- The rest of an arbiter's frame, all of which has a position left in the output frame, has been placed in it (R160). -/
def PlacedLast (s t : State) (output : Side) (f : OutFrame) (rest : List Byte) : Prop :=
  t.output.get output = { s.output.get output with frame := some { f with placed := f.placed ++ rest } } ∧
  t.management.arbiter.get output = none

/-- The line transmitter's record of a slot after the bytes of a whole tag cycle, from position 0 on (R33 to R37). -/
def cycleRun (timing : Timing) (identity : Option Half) (t : TagTransmitter) (bs : List Byte) : TagTransmitter :=
  bs.zipIdx.foldl (fun t b => cycleNext timing identity b.2 b.1 t) t

/-! ## Invariants -/

/-- The receivers and the tag receiver stand within their ranges: a miss count is at most 2, a receiver in LOCKED has its
phase and its next frame start, a run length is at most 2 and a tag-loss count at most 8 (R8, R26, R27). -/
def ReceiversInRange (s : State) : Prop :=
  (∀ side, (s.receiver.get side).missCount ≤ 2 ∧
    ((s.receiver.get side).align = .locked →
      (s.receiver.get side).phase ≠ none ∧ (s.receiver.get side).nextStart ≠ none)) ∧
  ∀ i : Slot, s.slots[i].tag.runLength ≤ 2 ∧ s.slots[i].tag.tagLossCount ≤ 8

/-- The buffers stand with the arbiters: a buffer is SENDING exactly when its output's arbiter is sending a frame from it,
and a reply buffer is RESERVED exactly when one request of its side waits whose outcome will enter it (R157, R158, R160,
R182). -/
def BuffersFollowArbiters (s : State) : Prop :=
  ∀ side,
    let source := fun x : FrameSource => ∃ rest, s.management.arbiter.get side = some { source := x, rest := rest }
    (s.management.forward.get side = .sending ↔ source .forward) ∧
    ((∃ b, s.management.reply.get side = .sending b) ↔ source .reply) ∧
    (s.management.requests.filter fun r => r.side == side && r.live).length =
      if s.management.reply.get side = .reserved then 1 else 0

/-- ALERT follows the detected flags and the alert enables (R144). -/
def AlertFollows (s : State) : Prop := s.report.alert = alertLevel s.report.seen s.report.settings.alertEnable

/-- The indexes of every allocated hop entry, slot by slot. -/
def allocatedHops (s : State) : List (Fin 256) :=
  (s.slots.toList.map fun sl => sl.map.route.map Hop.index).flatten

/-- Each hop entry is either on the free list or on the route list of exactly one slot, and no list holds more than six
(R59, R60). -/
def HopsConserved (s : State) : Prop :=
  (s.freeHops ++ allocatedHops s).Perm (List.finRange 256) ∧ ∀ i : Slot, s.slots[i].map.route.length ≤ 6

/-- The finding queue holds at most one record per slot (R145). -/
def OneRecordPerSlot (s : State) : Prop := (s.report.queue.map fun q => q.finding.slot).Nodup

/-- A slot whose finding is pending has a record in the queue (R97). -/
def PendingIsQueued (s : State) : Prop :=
  ∀ i : Slot, s.slots[i].context.findingPending = true → hasRecord s.report.queue i = true

/-- A slot is checked only while its role is TERMINATE and its entry LOADED, and an entry that measures delay stands on an
ORIGINATE slot (R42, R73). -/
def ChecksStandOnEntries (s : State) : Prop :=
  ∀ i : Slot,
    (beingChecked s.slots[i].context.state = true →
      s.slots[i].map.rxRole = .terminate ∧ s.slots[i].map.entry.isSome = true) ∧
    (measuresDelay s.slots[i].map = true → s.slots[i].map.txRole = .originate)

/-- A delay that an average may take (R132). -/
def InAverageRange (v : Option Nat) : Prop := ∀ a, v = some a → a ≤ 16777200

/-- Every average lies within 0..16,777,200 and is present exactly when the sample count is above 0, and every baseline,
written or captured, lies within the same range (R128, R132). -/
def DelaysInRange (s : State) : Prop :=
  ∀ i : Slot,
    InAverageRange s.slots[i].probe.average ∧
    (s.slots[i].probe.average.isSome = true ↔ 0 < s.slots[i].probe.sampleCount) ∧
    InAverageRange s.slots[i].map.workingBaseline ∧ InAverageRange s.slots[i].map.protectBaseline ∧
    ∀ c ∈ s.slots[i].inFlight.baselines, c.2 ≤ 16777200

/-- The probe table holds at most one entry per slot (R104). -/
def OneEntryPerSlot (s : State) : Prop := ((entriesOf s.probe.table).map ProbeEntry.slot).Nodup

end Sys2Proof.Machine
end

