-- ==== Sys2Proof/Certificates/Slice0/Obligations.lean ====
section
/-! DEFINITION. The statements for the provers. A statement about a command says, for a part that RESETN does not hold,
which next state the command gives, what in it differs and what does not. -/

open Sys2Proof Sys2Proof.Machine

/-! ## The machine -/

/-- A step runs the command at the front of the queue on the state with the queue's rest, and every command answers a next
state with that queue; on an empty queue the part idles, which is the model's choice (log entry 9). -/
def Obligations.StepRunsTheFrontCommand : Prop :=
  ∀ s : State,
    (∀ c rest, s.pending = c :: rest → step s = exec c { s with pending := rest }) ∧
    (∀ c : Instr, ∃ t, exec c s = .next t ∧ t.pending = s.pending) ∧
    (s.pending = [] → step s = .next s)

/-- RESETN pulled low makes ALERT low and the stamp counter 0, and while it is held low no event but its release changes
anything (R1, R144). That the whole state takes its power-on value at the pull, with no frame on the outputs, is log entry
15, and the values that the model chose there are log entries 4 and 5; that commands do nothing meanwhile is log entry 1. -/
def Obligations.ResetnHoldsThePart : Prop :=
  ∀ s : State,
    (∃ t, exec .resetnAsserted s = .next t ∧ t.resetHeld = true ∧ t.report.alert = false ∧ t.timebase.stamp = 0 ∧
      t = { State.reset with resetHeld := true, pending := s.pending }) ∧
    (s.resetHeld = true → ∀ c : Instr, c ≠ .powerOn → c ≠ .resetnAsserted → exec c s = .next s)

/-- The state after POWER_ON, from the reset tables of R18, R31, R38, R57, R71, R102, R124, R138, R151 and R163. -/
def Obligations.PowerOnState : Prop :=
  ∀ s : State, ∃ t, exec .powerOn s = .next t ∧ t.pending = s.pending ∧ t.resetHeld = false ∧
    t.timebase = { stamp := 0, periodClock := 0, boundariesDue := 0 } ∧
    (∀ side, (t.receiver.get side).align = .hunt ∧ (t.receiver.get side).missCount = 0 ∧
      (t.receiver.get side).phase = none ∧ (t.receiver.get side).nextStart = none) ∧
    t.lineCycleStart = none ∧
    (∀ side, ∃ f, t.output.get side = { timing := .localTimed, frame := some f, last := none, frameDue := false } ∧
      f.phase = 0 ∧ f.tagsSent = false ∧ f.placed = [] ∧ f.carried = List.replicate 55 0 ∧ f.cut = none ∧
      ∀ i : Slot, f.slots[i] = { tag := 0, parity := 0, condition := 0x01, payload := List.replicate 1952 0 }) ∧
    t.lineTx = { identity := none, cycle := some { start := 0, next := 1 }, startDue := false, ending := false } ∧
    (∀ k : Fin 8, t.profiles[k] =
      { settleLimit := 313, soakLength := 3125, erroredAllowance := 0, minSamples := 4, restartBudget := 3,
        filterWeight := 3, tolerance := 512, shiftPersistence := 3, defectHold := 313 }) ∧
    t.freeHops = List.finRange 256 ∧
    ((∀ k : Fin 8, t.probe.table[k] = none) ∧ t.probe.rotationIndex = 127 ∧ t.probe.intervalCount = 0 ∧
      t.probe.interval = 4 ∧ t.probe.timeout = 16 ∧ t.probe.lost = 0 ∧ t.probe.late = 0 ∧ t.probe.rejected = 0 ∧
      t.probe.boundariesDue = 0) ∧
    (t.report.queue = [] ∧ t.report.seen = { minor := false, major := false, critical := false } ∧
      t.report.alert = false ∧
      t.report.settings =
        { side := .drop, destination := none, reportInfo := true
          report := { minor := true, major := true, critical := true }
          alertEnable := { minor := false, major := true, critical := true }
          severity := #v[.major, .major, .minor, .major, .critical, .major, .major, .major, .minor, .major, .minor,
            .minor, .minor] }) ∧
    (t.management.identity = none ∧ (∀ side, (t.management.channel.get side) = { taken := none, completed := [] } ∧
      t.management.forward.get side = .free ∧ t.management.reply.get side = .free ∧
      t.management.arbiter.get side = none) ∧ t.management.checkErrors = 0 ∧ t.management.commandDiscards = 0 ∧
      t.management.forwardDiscards = 0 ∧ t.management.noticeSequence = 0 ∧ t.management.requests = [] ∧
      t.management.restartEnded = ⟨false, false⟩) ∧
    t.restartsDue = { tagReceiver := 0, lineTransmitter := 0, probeEngine := 0, reportUnit := 0 } ∧
    ∀ i : Slot,
      t.slots[i].map =
        { rxRole := .monitor, txRole := .carry, originPort := 0, originTrail := 0, originEpoch := 0, entry := none,
          expectedEpoch := 0, route := [], workingBaseline := none, protectBaseline := none } ∧
      t.slots[i].parityMemory = none ∧
      t.slots[i].tag =
        { assembly := Vector.replicate 32 none, slipMark := false, paritySum := 0, forwardDefectSeen := false,
          protectBit := false, runLength := 0, lastValid := none, held := none, tagLossCount := 0,
          heldProtect := .working, candidate := none, lastFault := none } ∧
      (t.slots[i].tx.latched =
        { role := .carry, port := 0, trail := 0, epoch := 0, window := false, probeNumber := 0, probeAge := 0,
          echoNumber := 0, echoAge := 0, echoHold := 0 } ∧
        t.slots[i].tx.emitted = [0] ∧ t.slots[i].tx.completed = none ∧ t.slots[i].tx.lastEmitted = none) ∧
      t.slots[i].context =
        { state := .idle, waitReason := .noTag, lastCause := none, settleTimer := 0, soakCount := 0,
          erroredCount := 0, restartCount := 0, strikes := 0, defectTimer := 0, defectNow := false,
          lossMark := false, findingPending := false } ∧
      t.slots[i].probe =
        { nextNumber := 1, field := none, lastEcho := 0, lastResponded := 0, pendingEcho := none, echoField := none,
          average := none, sampleCount := 0 } ∧
      t.slots[i].inFlight =
        { boundaries := 0, reports := [], losses := 0, samples := 0, restarts := 0, echoes := [], withdraws := 0,
          filterResets := [], baselines := [], findings := [] }

/-! ## Timebase and local periods -/

/-- A tick of REFCLK advances the stamp counter by one modulo 2^32, makes a boundary due at a multiple of 16,384 and a LOCAL
frame at a multiple of 512, and changes nothing else. A boundary that is due advances the period clock by one modulo 2^32
and is delivered to every context and to the probe engine (R1, R2, R15; that it may be taken after its tick is log entry
10). -/
def Obligations.TheTimebaseCountsTicksAndPeriods : Prop :=
  ∀ s : State, s.resetHeld = false →
    (∃ t, exec .refclkTick s = .next t ∧
      t.timebase.stamp.toNat = (s.timebase.stamp.toNat + 1) % 4294967296 ∧
      t.timebase.periodClock = s.timebase.periodClock ∧
      t.timebase.boundariesDue =
        s.timebase.boundariesDue + (if t.timebase.stamp.toNat % 16384 = 0 then 1 else 0) ∧
      (∀ side, t.output.get side =
        { s.output.get side with frameDue := decide (t.timebase.stamp.toNat % 512 = 0) }) ∧
      t = { s with timebase := t.timebase, output := t.output }) ∧
    (0 < s.timebase.boundariesDue →
      ∃ t, exec (.localPeriodBoundary .timebase) s = .next t ∧
        t.timebase.periodClock.toNat = (s.timebase.periodClock.toNat + 1) % 4294967296 ∧
        t.timebase.stamp = s.timebase.stamp ∧ t.timebase.boundariesDue + 1 = s.timebase.boundariesDue ∧
        (∀ i : Slot, t.slots[i] =
          { s.slots[i] with inFlight :=
            { s.slots[i].inFlight with boundaries := s.slots[i].inFlight.boundaries + 1 } }) ∧
        t = { s with timebase := t.timebase, slots := t.slots,
                     probe := { s.probe with boundariesDue := s.probe.boundariesDue + 1 } })

/-- A boundary that brings no timer to its limit counts in SETTLING, in SOAKING and, while defect now is set, in
VERIFIED, and changes nothing else (R76, R82, R87, R93, R94). -/
def Obligations.BoundaryCountsBelowTheLimits : Prop :=
  ∀ (s : State) (i : Slot), s.resetHeld = false → 0 < s.slots[i].inFlight.boundaries →
    let c := s.slots[i].context
    let p := slotProfile (checkInputs s) s.slots[i].map
    let answers := fun c' : Context =>
      ∃ t, exec (.localPeriodBoundary (.context i)) s = .next t ∧
        SlotBecomes i s t { boundaryTaken s.slots[i] with context := c' }
    (c.state = .settling → c.settleTimer + 1 < p.settleLimit →
      answers { c with settleTimer := c.settleTimer + 1 }) ∧
    (c.state = .soaking → c.soakCount + 1 < p.soakLength → answers { c with soakCount := c.soakCount + 1 }) ∧
    (c.state = .verified → c.defectNow = true → c.defectTimer + 1 < p.defectHold →
      answers { c with defectTimer := c.defectTimer + 1 }) ∧
    (c.state = .verified → c.defectNow = false → answers c) ∧
    (c.state = .idle ∨ c.state = .window ∨ c.state = .failed → answers c)

/-- A boundary that brings the settle timer to the settle limit fails the slot with its wait reason as cause, and one that
brings the defect timer to the defect hold fails it with DEFECT; the boundary's own row and LOCAL_PERIOD_BOUNDARY at the
context are the same event (R82, R93; that they are is log entry 2). -/
def Obligations.TimersAtTheirLimitsFailTheSlot : Prop :=
  ∀ (s : State) (i : Slot), s.resetHeld = false → 0 < s.slots[i].inFlight.boundaries →
    let sl := boundaryTaken s.slots[i]
    let p := slotProfile (checkInputs s) sl.map
    (sl.context.state = .settling → p.settleLimit ≤ sl.context.settleTimer + 1 →
      ∃ t, exec (.settleLimitReached i) s = .next t ∧ exec (.localPeriodBoundary (.context i)) s = .next t ∧
        SlotBecomes i s t (enterFailed (checkInputs s) i (waitCause sl.context.waitReason)
          { sl with context := { sl.context with settleTimer := sl.context.settleTimer + 1 } })) ∧
    (sl.context.state = .verified → sl.context.defectNow = true → p.defectHold ≤ sl.context.defectTimer + 1 →
      ∃ t, exec (.defectHoldReached i) s = .next t ∧ exec (.localPeriodBoundary (.context i)) s = .next t ∧
        SlotBecomes i s t (enterFailed (checkInputs s) i .defect
          { sl with context := { sl.context with defectTimer := sl.context.defectTimer + 1 } }))

/-- The boundary at which the soak count reaches the soak length decides the slot by the rows of R88, the count included
(R87, R88). -/
def Obligations.SoakEndDecidesTheSlot : Prop :=
  ∀ (s : State) (i : Slot) (e : MapEntry), s.resetHeld = false → 0 < s.slots[i].inFlight.boundaries →
    s.slots[i].context.state = .soaking → s.slots[i].map.entry = some e →
    s.profiles[e.profile].soakLength ≤ s.slots[i].context.soakCount + 1 →
    let inp := checkInputs s
    let p := s.profiles[e.profile]
    let sl := { boundaryTaken s.slots[i] with
      context := { s.slots[i].context with soakCount := s.slots[i].context.soakCount + 1 } }
    ∃ t, exec (.soakEnd i) s = .next t ∧ exec (.localPeriodBoundary (.context i)) s = .next t ∧ OnlySlot i s t ∧
      (e.delay = .none → t.slots[i] = enterVerified inp i false sl) ∧
      (e.delay ≠ .none → sl.probe.sampleCount < p.minSamples → t.slots[i] = enterFailed inp i .noDelay sl) ∧
      (e.delay ≠ .none → p.minSamples ≤ sl.probe.sampleCount → ∀ a, sl.probe.average = some a →
        (e.delay = .baseline → baselineOf sl.map sl.tag.heldProtect = none →
          t.slots[i] = enterVerified inp i true { sl with map := writeBaseline sl.map sl.tag.heldProtect a }) ∧
        ∀ r, (e.delay = .fixed r ∨ e.delay = .baseline ∧ baselineOf sl.map sl.tag.heldProtect = some r) →
          (p.tolerance < ((a : Int) - (r : Int)).natAbs → t.slots[i] = enterFailed inp i .delayShift sl) ∧
          (((a : Int) - (r : Int)).natAbs ≤ p.tolerance → t.slots[i] = enterVerified inp i false sl))

/-- What entering a state does: the fields that change, the finding made before the entry steps and the requests sent
(R80, R83, R85, R89, R94, R95, R96). -/
def Obligations.EntriesToTheStatesOfACheck : Prop :=
  ∀ (inp : CheckInputs) (i : Slot) (sl : SlotState),
    let c := sl.context
    let q := sl.inFlight
    (∀ cause, enterFailed inp i cause sl =
      { sl with
        context := { c with state := .failed, lastCause := some cause }
        inFlight := { q with
          findings := q.findings ++ [snapshot inp i sl .failed (some cause) false]
          withdraws := q.withdraws + (if c.state = .soaking ∨ c.state = .verified then 1 else 0) } }) ∧
    (∀ baselineSet, enterVerified inp i baselineSet sl =
      { sl with
        context := { c with state := .verified, strikes := 0, defectTimer := 0, restartCount := 0 }
        inFlight := { q with findings := q.findings ++ [snapshot inp i sl .verified none baselineSet] } }) ∧
    enterSoaking sl = { sl with context := { c with state := .soaking, soakCount := 0, erroredCount := 0 } } ∧
    (∀ settled, settled =
        { sl with
          context := { c with
            state := .settling, waitReason := .noTag, settleTimer := 0, soakCount := 0, erroredCount := 0,
            strikes := 0, defectTimer := 0 }
          inFlight := { q with withdraws := q.withdraws + 1, filterResets := q.filterResets ++ [.settling] } } →
      enterSettling sl = settled ∧
      enterSettlingAfresh sl = { settled with context := { settled.context with restartCount := 0 } }) ∧
    (∀ cause,
      let counted := { sl with context := { c with restartCount := c.restartCount + 1 } }
      ((slotProfile inp sl.map).restartBudget < c.restartCount + 1 →
        checkRestart inp i cause sl = enterFailed inp i .unstable counted) ∧
      (c.restartCount + 1 ≤ (slotProfile inp sl.map).restartBudget →
        checkRestart inp i cause sl =
          { sl with
            context := { c with
              state := .settling, waitReason := .noTag, settleTimer := 0, soakCount := 0, erroredCount := 0,
              strikes := 0, defectTimer := 0, restartCount := c.restartCount + 1, lastCause := some cause }
            inFlight := { q with
              findings := q.findings ++ [snapshot inp i counted .restarted (some cause) false]
              withdraws := q.withdraws + 1, filterResets := q.filterResets ++ [.settling] } }))

/-- The finding that a transition makes is a snapshot of the slot: its fields are those of R96, the values that R137 gives
are present exactly with the average and the reference of the held side, and the reported shift is the internal shift
saturated to -32,768..32,767 with its flag (R96, R133, R135, R137). -/
def Obligations.FindingsAreSnapshotsOfTheCheck : Prop :=
  ∀ (inp : CheckInputs) (i : Slot) (sl : SlotState) (kind : FindingKind) (cause : Option Cause) (baselineSet : Bool),
    let f := snapshot inp i sl kind cause baselineSet
    let reference := fun r : Nat => ∃ e, sl.map.entry = some e ∧
      (e.delay = .fixed r ∨ e.delay = .baseline ∧
        (sl.tag.heldProtect = .working ∧ sl.map.workingBaseline = some r ∨
          sl.tag.heldProtect = .protect ∧ sl.map.protectBaseline = some r))
    f = { slot := i, kind := kind, cause := cause, epoch := sl.map.expectedEpoch, clock := inp.clock
          identity := f.identity, result := f.result, erroredCount := sl.context.erroredCount
          restartCount := sl.context.restartCount, baselineSet := baselineSet, average := sl.probe.average
          oneWay := sl.probe.average.map oneWayDelay, shift := f.shift } ∧
    (sl.tag.held = none → f.identity = none ∧ f.result = none) ∧
    (∀ h, sl.tag.held = some h → f.identity = some h.identity ∧ (sl.map.entry = none → f.result = none) ∧
      ∀ e, sl.map.entry = some e → f.result = some (matchResult e h.identity)) ∧
    (sl.probe.average = none ∨ (∀ r, ¬ reference r) → f.shift = none) ∧
    ∀ a r : Nat, sl.probe.average = some a → reference r →
      let d := (a : Int) - (r : Int)
      f.shift = some (max (-32768) (min 32767 d), decide (d < -32768 ∨ 32767 < d))

/-! ## The probe engine's boundaries -/

/-- A boundary at the probe engine that does not bring the interval count to the interval counts down and times out entries
and adds one to the interval count; PROBE_TIMEOUT of an entry that reaches 0 is the same event (R109, R112; that it is is
log entry 2). -/
def Obligations.ProbeBoundaryCountsDown : Prop :=
  ∀ s : State, s.resetHeld = false → 0 < s.probe.boundariesDue → s.probe.intervalCount + 1 < s.probe.interval →
    ∃ c t, CountedDown s c ∧ exec (.localPeriodBoundary .probeEngine) s = .next t ∧
      t = { c with probe := { c.probe with intervalCount := s.probe.intervalCount + 1 } } ∧
      ∀ k : Fin 8, (∃ e, s.probe.table[k] = some e ∧ e.remaining ≤ 1) → exec (.probeTimeout k) s = .next t

/-- A boundary at which the interval count reaches the interval counts down first and then takes a rotation step, which arms
at the lowest free index the first wanting slot past the rotation index, a soaking one before a verified one (R108,
R109). PROBE_TIMEOUT of an entry that reaches 0 at that boundary is the same event, which is log entry 2. -/
def Obligations.IntervalExpiryTakesARotationStep : Prop :=
  ∀ s : State, s.resetHeld = false → 0 < s.probe.boundariesDue → s.probe.interval ≤ s.probe.intervalCount + 1 →
    ∃ c t, CountedDown s c ∧ exec .intervalCountExpiry s = .next t ∧
      exec (.localPeriodBoundary .probeEngine) s = .next t ∧
      (∀ k : Fin 8, (∃ e, s.probe.table[k] = some e ∧ e.remaining ≤ 1) → exec (.probeTimeout k) s = .next t) ∧
      let idle : State := { c with probe := { c.probe with intervalCount := 0 } }
      ((∀ k : Fin 8, c.probe.table[k] ≠ none) → t = idle) ∧
      ((∀ i, ¬ Wants c .soaking i ∧ ¬ Wants c .verified i) → t = idle) ∧
      ∀ (k : Fin 8) (i : Slot), c.probe.table[k] = none → (∀ k' < k, c.probe.table[k'] ≠ none) →
        (FirstWanting c .soaking i ∨ (∀ j, ¬ Wants c .soaking j) ∧ FirstWanting c .verified i) →
        let p := c.slots[i].probe
        t.probe = { c.probe with
          intervalCount := 0, rotationIndex := i
          table := c.probe.table.set k
            (some { slot := i, number := p.nextNumber, launch := none, remaining := c.probe.timeout }) } ∧
        t = { c with slots := t.slots, probe := t.probe } ∧ (∀ j, j ≠ i → t.slots[j] = c.slots[j]) ∧
        t.slots[i] = { c.slots[i] with
          probe := { p with nextNumber := if p.nextNumber = 255 then 1 else p.nextNumber + 1 } }

/-! ## Receivers -/

/-- A receiver in HUNT takes the first frame start of its input as its candidate, and goes on from the first position not
yet examined when there is none. A receiver in CONFIRM enters LOCKED when the frame one frame length on has the alignment
word and the phase after the candidate's, and otherwise returns to HUNT one byte past its candidate. Neither delivers
anything (R6, R7). That positions count from power-on, and at which one a search without a frame start goes on, is log
entry 4. -/
def Obligations.SearchAndConfirmFindTheAlignment : Prop :=
  (∀ (s : State) (side : Side) (input : List Byte), s.resetHeld = false → (s.receiver.get side).align = .hunt →
     let r := s.receiver.get side
     ∃ t r', exec (.huntCandidate side input) s = .next t ∧ t = { s with receiver := s.receiver.set side r' } ∧
       (∀ k b, FrameStartAt input k → (∀ k' < k, ¬ FrameStartAt input k') → input[k + 4]? = some b →
         r' = { r with align := .confirm (r.searchFrom + k) (BitVec.ofNat 5 b.toNat) }) ∧
       ((∀ k, ¬ FrameStartAt input k) → r' = { r with searchFrom := r.searchFrom + (input.length - 4) })) ∧
  ∀ (s : State) (side : Side) (word : Vector Byte 4) (b : Byte) (start : Nat) (p : Phase), s.resetHeld = false →
    (s.receiver.get side).align = .confirm start p →
    let r := s.receiver.get side
    ∃ t r', exec (.confirmFrame side word b) s = .next t ∧ t = { s with receiver := s.receiver.set side r' } ∧
      (word = #v[0xD3, 0x2E, 0x71, 0x0C] ∧ b.toNat = (p.toNat + 1) % 32 →
        r' = { r with align := .locked, missCount := 0, phase := some (p + 1),
                      nextStart := some (start + 250304 + 250304) }) ∧
      (¬ (word = #v[0xD3, 0x2E, 0x71, 0x0C] ∧ b.toNat = (p.toNat + 1) % 32) →
        r' = { r with align := .hunt, searchFrom := start + 1 })

/-! ## Frames -/

/-- What one delivered line-in frame leaves at a slot, before the line cycle end of phase 31: the overhead is assembled, the
parity byte is compared with the parity memory, and the memory is renewed; a slip comes first (R12, R21, R22). -/
def Obligations.DeliveredFrameAtASlot : Prop :=
  ∀ (slipped : Bool) (p : Phase) (start : Option Stamp) (b : SlotBytes) (sl : SlotState),
    let t := sl.tag
    ∃ t' : TagReceiver,
      (p ≠ 31 → deliverSlot slipped p start b sl =
        { sl with tag := t', parityMemory := some (b.payload.foldl (· ^^^ ·) 0) }) ∧
      (p = 31 → deliverSlot slipped p start b sl =
        tagCycleEnd start { sl with tag := t', parityMemory := some (b.payload.foldl (· ^^^ ·) 0) }) ∧
      (∀ k : Fin 32, t'.assembly[k] =
        if k.val = p.toNat then some b.tag
        else if slipped = true ∨ p = 0 then none else t.assembly[k]) ∧
      t'.slipMark = (slipped || t.slipMark) ∧
      (sl.parityMemory = none → t'.paritySum = if slipped then 0 else t.paritySum) ∧
      (∀ m, sl.parityMemory = some m → t'.paritySum = (if slipped then 0 else t.paritySum) +
        ((List.finRange 8).filter fun k => b.parity.getLsb k != m.getLsb k).length) ∧
      t'.forwardDefectSeen = (t.forwardDefectSeen || b.condition.getLsb 0) ∧ t'.protectBit = b.condition.getLsb 1 ∧
      t' = { t with
        assembly := t'.assembly, slipMark := t'.slipMark, paritySum := t'.paritySum
        forwardDefectSeen := t'.forwardDefectSeen, protectBit := t'.protectBit }

/-- What an output carries: before its first frame 00h; of a frame each byte by the layout of R3, with the alignment
word, the phase, and 00h in a management position that no byte has been placed in; and after a frame that was cut off
00h until the next one starts (R3, R5, R14). That an output carries 00h before its first frame, as while RESETN is low
and until the first LOCAL frame is started, is the model's choice (log entries 15 and 14). So is the 00h of a
management position that the model has not reached yet: positions are reached at the events of the arbiter and of the
frame and not by ticks, and R160 puts an arbiter's next byte there once the position is reached (log entry 3). -/
def Obligations.OutputFramesAreLaidOut : Prop :=
  ∀ (o : Output) (n : Nat),
    (o.frame = none → outputByte o n = 0x00) ∧
    ∀ f, o.frame = some f →
      (f.cut.getD 250304 ≤ n → outputByte o n = 0x00) ∧
      (n < f.cut.getD 250304 →
        (n = 0 → outputByte o n = 0xD3) ∧ (n = 1 → outputByte o n = 0x2E) ∧ (n = 2 → outputByte o n = 0x71) ∧
        (n = 3 → outputByte o n = 0x0C) ∧ (n = 4 → (outputByte o n).toNat = f.phase.toNat) ∧
        (∀ k < 4, n = 5 + k → (f.placed.length ≤ k → outputByte o n = 0x00) ∧
          ∀ b, f.placed[k]? = some b → outputByte o n = b) ∧
        (∀ k < 55, n = 9 + k → ∀ b, f.carried[k]? = some b → outputByte o n = b) ∧
        (∀ i : Slot,
          (n = 64 + 3 * i.val → outputByte o n = f.slots[i].tag) ∧
          (n = 65 + 3 * i.val → outputByte o n = f.slots[i].parity) ∧
          (n = 66 + 3 * i.val → outputByte o n = f.slots[i].condition) ∧
          ∀ j < 1952, n = 448 + 128 * j + i.val → ∀ b, f.slots[i].payload[j]? = some b → outputByte o n = b))

/-- A line-in frame that is good, a slip or one of the first two misses is judged and delivered: the receiver, the
cycle-start stamp, the management bytes, every slot, and the frame that drop-out carries in FOLLOW. The frame before it has
ended with its arbiter's bytes in it, a LOCAL frame where it was abandoned (R4, R5, R8, R11, R13, R16, R160). That the frame
is delivered whole in one step, and which positions of the frame before were reached, are log entry 3; that an arbiter whose
frame has ended places 00h until its end is taken is log entry 11. -/
def Obligations.LockedLineFrameIsDelivered : Prop :=
  ∀ (s : State) (f : Frame) (sent : Nat) (p : Phase) (n : Nat) (slipped : Bool) (miss : Nat) (ph : Phase),
    s.resetHeld = false → s.receiver.line.align = .locked → s.receiver.line.phase = some p →
    s.receiver.line.nextStart = some n → TakenAs p s.receiver.line.missCount f slipped miss ph →
    let start := if ph = 0 then some s.timebase.stamp else if slipped then none else s.lineCycleStart
    ∃ t, exec (.lockedFrameJudged .line { frame := f, sent := sent }) s = .next t ∧
      t.receiver = { s.receiver with
        line := { s.receiver.line with phase := some ph, missCount := miss, nextStart := some (n + 250304) } } ∧
      t.lineCycleStart = start ∧
      (∀ i : Slot, t.slots[i] = deliverSlot slipped ph start f.slots[i] s.slots[i]) ∧
      t.output = { s.output with
        drop := { timing := .follow, frameDue := false, last := t.output.drop.last,
                  frame := some { phase := ph, tagsSent := false, placed := [], carried := f.carried,
                                  slots := f.slots, cut := none } } } ∧
      EndedOutput s t .drop (if s.output.drop.timing = .localTimed then sent else 250304) t.output.drop.last ∧
      t.management = { s.management with
        channel := { s.management.channel with
          line := channelBytes s.management.channel.line f.mgmt.toList }
        arbiter := { s.management.arbiter with drop := t.management.arbiter.drop } } ∧
      t = { s with
        receiver := t.receiver, lineCycleStart := t.lineCycleStart, slots := t.slots, output := t.output
        management := t.management }

/-- The third miss in a row loses alignment: HUNT from the byte after byte 4, and the management frame abandoned. On
line-in every slot is told of the stream loss, every held tag and assembly is cleared, the parity memories are
emptied, and drop-out's frame is cut off and goes to LOCAL. On drop-in line-out in FOLLOW goes to LOCAL, its frame and
the transmit tag cycle in progress cut, also that of a phase-31 frame at each slot whose tag byte had not been
emitted, and the contexts are told nothing (R8, R9, R10, R14, R17, R23, R37). That the frame cut off is the last one
delivered, of which `sent` bytes have been sent, is log entry 22; that an arbiter whose frame has ended places 00h
until its end is taken is log entry 11. -/
def Obligations.ThirdMissLosesAlignment : Prop :=
  (∀ (s : State) (f : Frame) (sent n : Nat), s.resetHeld = false → s.receiver.line.align = .locked →
     s.receiver.line.nextStart = some n → 2 ≤ s.receiver.line.missCount →
     (f.word ≠ Config.alignmentWord ∨ 31 < f.phase.toNat) →
     ∃ t, exec (.lockedFrameJudged .line { frame := f, sent := sent }) s = .next t ∧
       (t.receiver.drop = s.receiver.drop ∧ t.receiver.line.align = .hunt ∧ t.receiver.line.missCount = 0 ∧
         t.receiver.line.searchFrom = n + 5) ∧
       t.lineCycleStart = none ∧
       (∀ i : Slot, t.slots[i] = { s.slots[i] with
         tag := { s.slots[i].tag with
           assembly := Vector.replicate 32 none, slipMark := false, paritySum := 0, forwardDefectSeen := false
           protectBit := false, held := none, runLength := 0, tagLossCount := 0, candidate := none }
         parityMemory := none
         inFlight := { s.slots[i].inFlight with losses := s.slots[i].inFlight.losses + 1 } }) ∧
       t.management = { s.management with
         channel := { s.management.channel with line := { s.management.channel.line with taken := none } }
         arbiter := { s.management.arbiter with drop := t.management.arbiter.drop } } ∧
       t.output.line = s.output.line ∧
       (s.output.drop.timing = .localTimed → t.output.drop = s.output.drop ∧
         t.management.arbiter.drop = s.management.arbiter.drop) ∧
       (s.output.drop.timing = .follow →
         t.output.drop = { s.output.drop with
           timing := .localTimed, frameDue := false, frame := t.output.drop.frame } ∧
         EndedOutput s t .drop sent t.output.drop.frame) ∧
       t = { s with
         receiver := t.receiver, lineCycleStart := t.lineCycleStart, slots := t.slots, output := t.output
         management := t.management }) ∧
  ∀ (s : State) (f : Frame) (sent n : Nat), s.resetHeld = false → s.receiver.drop.align = .locked →
    s.receiver.drop.nextStart = some n → 2 ≤ s.receiver.drop.missCount →
    (f.word ≠ Config.alignmentWord ∨ 31 < f.phase.toNat) →
    ∃ t, exec (.lockedFrameJudged .drop { frame := f, sent := sent }) s = .next t ∧
      (t.receiver.line = s.receiver.line ∧ t.receiver.drop.align = .hunt ∧ t.receiver.drop.missCount = 0 ∧
        t.receiver.drop.searchFrom = n + 5) ∧
      t.management = { s.management with
        channel := { s.management.channel with drop := { s.management.channel.drop with taken := none } }
        arbiter := { s.management.arbiter with line := t.management.arbiter.line } } ∧
      t.output.drop = s.output.drop ∧
      (s.output.line.timing = .localTimed → t.output.line = s.output.line ∧ t.lineTx = s.lineTx ∧ t.slots = s.slots ∧
        t.management.arbiter.line = s.management.arbiter.line) ∧
      (s.output.line.timing = .follow →
        t.output.line = { s.output.line with
          timing := .localTimed, frameDue := false, frame := t.output.line.frame } ∧
        EndedOutput s t .line sent t.output.line.frame ∧
        t.lineTx = { s.lineTx with cycle := none, startDue := false, ending := false } ∧
        ∀ i : Slot, t.slots[i] = SlotAtCut s sent i) ∧
      t = { s with
        receiver := t.receiver, output := t.output, management := t.management, lineTx := t.lineTx, slots := t.slots }

/-- A drop-in frame that is delivered: the receiver, the management bytes, and the frame that line-out carries in
FOLLOW. Its payload, parity and condition bytes pass unchanged. Its tag bytes follow the cycle in progress, or belong
to none after a switch to FOLLOW or a break of phase; a frame of phase 0 makes a transmit cycle start due, which
writes its tag bytes. A switch to FOLLOW cuts the cycle in progress short (R4, R5, R8, R10, R13, R16, R17, R33 to R37,
R160). That it is delivered whole in one step, and which positions of the frame before were reached, are log entry 3;
that an arbiter whose frame has ended places 00h until its end is taken is log entry 11; that a frame after a cycle
start not taken belongs to no cycle is log entry 12. -/
def Obligations.LockedDropFrameIsDelivered : Prop :=
  ∀ (s : State) (f : Frame) (sent : Nat) (p : Phase) (n : Nat) (slipped : Bool) (miss : Nat) (ph : Phase),
    s.resetHeld = false → s.receiver.drop.align = .locked → s.receiver.drop.phase = some p →
    s.receiver.drop.nextStart = some n → TakenAs p s.receiver.drop.missCount f slipped miss ph →
    let before := fun i : Slot => if s.output.line.timing = .localTimed then SlotAtCut s sent i else s.slots[i]
    ∃ t g, exec (.lockedFrameJudged .drop { frame := f, sent := sent }) s = .next t ∧
      t.receiver = { s.receiver with
        drop := { s.receiver.drop with phase := some ph, missCount := miss, nextStart := some (n + 250304) } } ∧
      t.output = { s.output with
        line := { timing := .follow, frameDue := false, frame := some g, last := t.output.line.last } } ∧
      g = { phase := ph, tagsSent := false, placed := [], carried := f.carried, slots := g.slots, cut := none } ∧
      EndedOutput s t .line (if s.output.line.timing = .localTimed then sent else 250304) t.output.line.last ∧
      t.management = { s.management with
        channel := { s.management.channel with
          drop := channelBytes s.management.channel.drop f.mgmt.toList }
        arbiter := { s.management.arbiter with line := t.management.arbiter.line } } ∧
      t = { s with
        receiver := t.receiver, slots := t.slots, output := t.output, management := t.management
        lineTx := t.lineTx } ∧
      (ph = 0 → t.lineTx = { s.lineTx with cycle := none, startDue := true, ending := false } ∧
        ∀ i : Slot, g.slots[i] = f.slots[i] ∧ t.slots[i] = before i) ∧
      (∀ c, ph ≠ 0 → s.output.line.timing = .follow → s.lineTx.cycle = some c → c.next = ph.toNat →
        t.lineTx = { s.lineTx with
          cycle := if ph = 31 then none else some { c with next := ph.toNat + 1 }, startDue := false
          ending := decide (ph = 31) } ∧
        ∀ i : Slot,
          g.slots[i] = { f.slots[i] with
            tag := cycleByte .follow s.lineTx.identity s.slots[i].tx ph.toNat f.slots[i].tag } ∧
          t.slots[i] = { s.slots[i] with
            tx := cycleNext .follow s.lineTx.identity ph.toNat f.slots[i].tag s.slots[i].tx }) ∧
      (ph ≠ 0 → (s.output.line.timing = .localTimed ∨ ∀ c, s.lineTx.cycle = some c → c.next ≠ ph.toNat) →
        t.lineTx = { s.lineTx with cycle := none, startDue := false, ending := false } ∧
        ∀ i : Slot, t.slots[i] = before i ∧ g.slots[i] = { f.slots[i] with
          tag := if s.slots[i].map.txRole = .originate then 0 else f.slots[i].tag })

/-- A LOCAL frame starts at a stamp that is a multiple of 512: its phase is the stamp divided by 512, modulo 32, its
condition bytes are 01h, its payload 00h, its parity that of the output's previous frame unless it was cut off, and its
tag bytes 00h but for originated tags on line-out; a phase-0 frame on line-out makes a transmit cycle start due, which
writes its tag bytes (R4, R5, R15, R17, R33, R36, R160). That a LOCAL frame of another phase breaks the cycle off is log
entry 13, that one after a cycle start not taken belongs to no cycle is log entry 12, and that an arbiter whose frame has
ended places 00h until its end is taken is log entry 11. -/
def Obligations.LocalFrameStartsAtItsStamp : Prop :=
  ∀ (s : State) (side : Side), s.resetHeld = false → (s.output.get side).timing = .localTimed →
    (s.output.get side).frameDue = true → s.timebase.stamp.toNat % 512 = 0 →
    ∃ t g, exec (.localFrameStart side) s = .next t ∧
      t.output = s.output.set side
        { timing := .localTimed, frameDue := false, frame := some g, last := (t.output.get side).last } ∧
      EndedOutput s t side 250304 (t.output.get side).last ∧
      g.phase.toNat = s.timebase.stamp.toNat / 512 % 32 ∧ g.carried = List.replicate 55 0 ∧ g.cut = none ∧
      g.placed = [] ∧ g.tagsSent = false ∧
      (∀ i : Slot, g.slots[i].condition = 0x01 ∧ g.slots[i].payload = List.replicate 1952 0 ∧
        ((s.output.get side).frame = none → g.slots[i].parity = 0) ∧
        ∀ o, (s.output.get side).frame = some o →
          g.slots[i].parity = if o.cut ≠ none then 0 else o.slots[i].payload.foldl (· ^^^ ·) 0) ∧
      t.management = { s.management with
        arbiter := s.management.arbiter.set side (t.management.arbiter.get side) } ∧
      t = { s with output := t.output, management := t.management, slots := t.slots, lineTx := t.lineTx } ∧
      (side = .drop → t.slots = s.slots ∧ t.lineTx = s.lineTx ∧ ∀ i : Slot, g.slots[i].tag = 0) ∧
      (side = .line → g.phase = 0 → t.slots = s.slots ∧
        t.lineTx = { s.lineTx with cycle := none, startDue := true, ending := false } ∧
        ∀ i : Slot, g.slots[i].tag = 0) ∧
      (side = .line → g.phase ≠ 0 → (∀ c, s.lineTx.cycle = some c → c.next ≠ g.phase.toNat) → t.slots = s.slots ∧
        t.lineTx = { s.lineTx with cycle := none, startDue := false, ending := false } ∧
        ∀ i : Slot, g.slots[i].tag = 0) ∧
      ∀ c, side = .line → g.phase ≠ 0 → s.lineTx.cycle = some c → c.next = g.phase.toNat →
        t.lineTx = { s.lineTx with
          cycle := if g.phase = 31 then none else some { c with next := g.phase.toNat + 1 }, startDue := false
          ending := decide (g.phase = 31) } ∧
        ∀ i : Slot,
          g.slots[i].tag = (if s.slots[i].tx.latched.role = .originate then
            byteAt (originTag s.lineTx.identity s.slots[i].tx.latched) g.phase.toNat else 0) ∧
          t.slots[i] = { s.slots[i] with
            tx := cycleNext .localTimed s.lineTx.identity g.phase.toNat 0 s.slots[i].tx }

/-! ## Trail tags -/

/-- The judgement of an assembly at a line cycle end, by the rows of R24 in their order. -/
def Obligations.AssemblyIsJudgedByTheFirstRow : Prop :=
  ∀ t : TagReceiver,
    (t.slipMark = true → judgeAssembly t = .invalid .slip) ∧
    (t.slipMark = false → (∃ p : Fin 32, t.assembly[p] = none) → judgeAssembly t = .invalid .incomplete) ∧
    ∀ bs : List Byte, bs.length = 32 → (∀ p : Fin 32, t.assembly[p] = bs[p.val]?) → t.slipMark = false →
      let correct := halfAt bs 30 = checkOf (bs.take 30)
      let inRange := (byteAt bs 16).toNat ≤ 6 ∧ (byteAt bs 10).toNat ≤ 3 ∧ (byteAt bs 12).toNat ≤ 3
      assemblyBytes t = bs ∧
      (¬ correct → judgeAssembly t = .invalid .checkError) ∧
      (correct → byteAt bs 0 ≠ 0x5C → judgeAssembly t = .invalid .foreign) ∧
      (correct → byteAt bs 0 = 0x5C → ¬ inRange → judgeAssembly t = .invalid .malformed) ∧
      (correct → byteAt bs 0 = 0x5C → inRange → judgeAssembly t = .valid)

/-- A line cycle end at a slot: persistence, tag loss and the protect state, the report made of them, the hand-off of a
valid tag's probe and echo fields, and the accumulations emptied (R25 to R30). The persistent fields stand at the bytes of
R19; a valid tag comes with its cycle-start stamp, as R24 says, and the run length stands within 0..2. -/
def Obligations.LineCycleEndReportsTheCycle : Prop :=
  ∀ (start : Option Stamp) (sl : SlotState), (judgeAssembly sl.tag = .valid → start ≠ none) → sl.tag.runLength ≤ 2 →
    let t := sl.tag
    let tag := assemblyBytes t
    let valid := judgeAssembly t = .valid
    let ind := if t.protectBit then Protect.protect else .working
    let persistent := fun bs : List Byte =>
      ({ identity := { node := byteAt bs 1 ++ byteAt bs 2, port := byteAt bs 3, trail := byteAt bs 4 ++ byteAt bs 5 }
         epoch := byteAt bs 6 ++ byteAt bs 7, windowFlag := (byteAt bs 8).getLsbD 0
         overflow := (byteAt bs 17).getLsbD 0
         route := (List.range (byteAt bs 16).toNat).map fun k =>
           byteAt bs (18 + 2 * k) ++ byteAt bs (18 + 2 * k + 1) } : HeldTag)
    ∃ (t' : TagReceiver) (r : CycleReport),
      tagCycleEnd start sl =
        { sl with
          tag := t'
          inFlight := { sl.inFlight with
            reports := sl.inFlight.reports ++ [r]
            echoes := sl.inFlight.echoes ++ (if judgeAssembly t = .valid then
              [{ probeNumber := byteAt tag 9, probeAge := (byteAt tag 10).toNat, echoNumber := byteAt tag 11
                 echoAge := (byteAt tag 12).toNat
                 echoHold := (byteAt tag 13).toNat * 65536 + (byteAt tag 14).toNat * 256 + (byteAt tag 15).toNat
                 cycleStart := start.getD 0 }] else []) } } ∧
      (valid →
        t'.runLength =
          (if ∃ v, t.lastValid = some v ∧ persistent v.bytes = persistent tag then min 2 (t.runLength + 1)
           else 1) ∧
        t'.held = (if t'.runLength = 2 then some (persistent tag) else t.held) ∧
        t'.lastValid = some { bytes := tag, stamp := start.getD 0 } ∧ t'.tagLossCount = 0 ∧
        t'.lastFault = t.lastFault ∧
        r.heldChanged = decide (t'.runLength = 2 ∧ t.held ≠ t'.held)) ∧
      (∀ f, judgeAssembly t = .invalid f →
        t'.lastFault = some f ∧ t'.lastValid = t.lastValid ∧
        t'.tagLossCount = (if t.tagLossCount < 8 then t.tagLossCount + 1 else t.tagLossCount) ∧
        t'.held = (if t.tagLossCount = 7 then none else t.held) ∧
        t'.runLength = (if t.tagLossCount = 7 then 0 else t.runLength) ∧ r.heldChanged = false) ∧
      (t'.candidate = some ind ∧
        t'.heldProtect = (if t.candidate = some ind then ind else t.heldProtect) ∧
        r.protectChanged = decide (t.candidate = some ind ∧ ind ≠ t.heldProtect)) ∧
      (t'.assembly = t.assembly ∧ t'.slipMark = false ∧ t'.paritySum = 0 ∧ t'.forwardDefectSeen = false ∧
        t'.protectBit = t.protectBit) ∧
      r = { r with
        result := judgeAssembly t, parityErrors := t.paritySum, forwardDefectSeen := t.forwardDefectSeen
        held := t'.held, protect := t'.heldProtect, tagLoss := decide (t'.tagLossCount = 8), cycleStart := start }

/-- An originated tag: 32 bytes with the latched fields at their places and a correct check, so that a tag receiver judges
it valid (R19, R24, R36). -/
def Obligations.OriginatedTagsAreValid : Prop :=
  ∀ (identity : Option Half) (l : Latched), l.probeAge ≤ 3 → l.echoAge ≤ 3 → l.echoHold < 16777216 →
    let t := originTag identity l
    t.length = 32 ∧ byteAt t 0 = 0x5C ∧ halfAt t 1 = identity.getD 0 ∧ byteAt t 3 = l.port ∧ halfAt t 4 = l.trail ∧
    halfAt t 6 = l.epoch ∧ byteAt t 8 = (if l.window then 0x01 else 0x00) ∧ byteAt t 9 = l.probeNumber ∧
    (byteAt t 10).toNat = l.probeAge ∧ byteAt t 11 = l.echoNumber ∧ (byteAt t 12).toNat = l.echoAge ∧
    tagEchoHold t = l.echoHold ∧ (∀ p, 16 ≤ p → p < 30 → byteAt t p = 0x00) ∧
    halfAt t 30 = checkOf (t.take 30) ∧ judgeTag t = .valid

/-- A whole tag cycle of a STAMP slot in FOLLOW with the identity latched. A tag of kind 5Ch and route count at most 6 is
stamped: the count, this node's number and the overflow flag are written, all else of bytes 0 to 29 passes, and the
emitted check is the fresh one when the received check was correct, inverted in both bytes when its high byte was wrong,
and in the low byte when only that was wrong; so the emitted check is correct exactly when the received one was (R34,
R35, R37). -/
def Obligations.StampingKeepsTheVerdictOfTheCheck : Prop :=
  ∀ (node : Half) (t : TagTransmitter) (bs : List Byte) (c : Nat), bs.length = 32 →
    t.latched.role = .stamp → t.decision = .undecided → t.receivedCheck = 0xFFFF → t.emittedCheck = 0xFFFF →
    t.emitted = [] → byteAt bs 0 = 0x5C → (byteAt bs 16).toNat = c → c ≤ 6 →
    ∃ out : List Byte,
      (cycleRun .follow (some node) t bs).completed = some { source := .stamped, bytes := out } ∧ out.length = 32 ∧
      (∀ p, p < 30 → byteAt out p =
        if p = 16 then BitVec.ofNat 8 (min 6 (c + 1))
        else if c = 6 ∧ p = 17 then byteAt bs 17 ||| 1
        else if c < 6 ∧ p = 18 + 2 * c then highByte node
        else if c < 6 ∧ p = 19 + 2 * c then lowByte node
        else byteAt bs p) ∧
      halfAt out 30 = checkOf (out.take 30) ^^^
        (if byteAt bs 30 = highByte (checkOf (bs.take 30)) then
          (if byteAt bs 31 = lowByte (checkOf (bs.take 30)) then 0x0000 else 0x00FF)
         else 0xFFFF) ∧
      (halfAt out 30 = checkOf (out.take 30) ↔ halfAt bs 30 = checkOf (bs.take 30))

/-- A whole tag cycle that is not stamped: carried unchanged by a CARRY slot in FOLLOW and by a STAMP slot without an
identity, with another kind byte or a count above 6; 00h in LOCAL for both roles; and the originated tag for an ORIGINATE
slot in either timing source. Its record names the source (R33, R34, R36, R37). -/
def Obligations.WholeCyclesThatAreNotStamped : Prop :=
  ∀ (identity : Option Half) (t : TagTransmitter) (bs : List Byte), bs.length = 32 → t.decision = .undecided →
    t.emitted = [] →
    let records := fun (timing : Timing) (source : TagSource) (bytes : List Byte) =>
      (cycleRun timing identity t bs).completed = some { source := source, bytes := bytes }
    (t.latched.role = .carry → records .follow .carried bs ∧ records .localTimed .idle (List.replicate 32 0)) ∧
    (t.latched.role = .stamp →
      (identity = none ∨ byteAt bs 0 ≠ 0x5C ∨ 6 < (byteAt bs 16).toNat → records .follow .carried bs) ∧
      records .localTimed .idle (List.replicate 32 0)) ∧
    (t.latched.role = .originate → ∀ timing, records timing .originated (originTag identity t.latched))

/-- The transmit cycle start that a phase-0 line-out frame made due: the identity and each slot's role are latched, an
ORIGINATE slot's settings, window flag and probe and echo fields too; its ARMED probe is launched or its probe field
ages, its pending echo becomes the echo field with its hold or the echo field ages; and byte 0 of each slot's tag is
written, with the stamping decision and the running checks begun afresh and the last emitted tag kept (R17, R32 to R37,
R110, R111, R121). That the cycle-start stamp in FOLLOW is the one that stands when this step is taken is log entry 7. -/
def Obligations.TransmitCycleStartLatchesAndLaunches : Prop :=
  ∀ (s : State) (f : OutFrame), s.resetHeld = false → s.output.line.frame = some f → s.lineTx.startDue = true →
    OneEntryPerSlot s →
    ∃ t g, exec .transmitCycleStart s = .next t ∧
      t.lineTx = { identity := s.management.identity, cycle := some { start := s.timebase.stamp, next := 1 }
                   startDue := false, ending := false } ∧
      t.output = { s.output with line := { s.output.line with frame := some g } } ∧ g = { f with slots := g.slots } ∧
      (∀ k : Fin 8, t.probe.table[k] = s.probe.table[k].map fun e =>
        if e.launch = none ∧ s.slots[e.slot].map.txRole = .originate then { e with launch := some s.timebase.stamp }
        else e) ∧
      t = { s with
        lineTx := t.lineTx, output := t.output, slots := t.slots, probe := { s.probe with table := t.probe.table } } ∧
      ∀ i : Slot,
        let sl := s.slots[i]
        let p' := t.slots[i].probe
        let fresh := { sl.tx with
          latched := t.slots[i].tx.latched, decision := .undecided, receivedCheck := 0xFFFF, emittedCheck := 0xFFFF
          highRight := false, emitted := [] }
        t.slots[i] = { sl with probe := p', tx := t.slots[i].tx } ∧
        t.slots[i].tx = cycleNext s.output.line.timing s.management.identity 0 f.slots[i].tag fresh ∧
        t.slots[i].tx.lastEmitted = sl.tx.lastEmitted ∧ t.slots[i].tx.completed = sl.tx.completed ∧
        t.slots[i].tx.emitted = [g.slots[i].tag] ∧ g.slots[i] = { f.slots[i] with tag := g.slots[i].tag } ∧
        (sl.map.txRole ≠ .originate → p' = sl.probe ∧
          t.slots[i].tx.latched = { sl.tx.latched with role := sl.map.txRole } ∧
          g.slots[i].tag = if s.output.line.timing = .localTimed then 0 else f.slots[i].tag) ∧
        (sl.map.txRole = .originate →
          g.slots[i].tag = 0x5C ∧
          p' = { sl.probe with field := p'.field, echoField := p'.echoField, pendingEcho := none } ∧
          (∀ (k : Fin 8) (e : ProbeEntry), s.probe.table[k] = some e → e.slot = i → e.launch = none →
            p'.field = some { number := e.number, age := 0 }) ∧
          ((∀ (k : Fin 8) (e : ProbeEntry), s.probe.table[k] = some e → e.slot = i → e.launch ≠ none) →
            p'.field = match sl.probe.field with
              | none => none
              | some x => if x.age < 3 then some { number := x.number, age := x.age + 1 } else none) ∧
          (∀ e, sl.probe.pendingEcho = some e →
            p'.echoField = if (s.timebase.stamp - e.received).toNat ≤ 16777215 then
              some { number := e.number, age := 0, hold := (s.timebase.stamp - e.received).toNat } else none) ∧
          (sl.probe.pendingEcho = none →
            p'.echoField = match sl.probe.echoField with
              | none => none
              | some x => if x.age < 3 then some { x with age := x.age + 1 } else none) ∧
          t.slots[i].tx.latched =
            { role := .originate, port := sl.map.originPort, trail := sl.map.originTrail
              epoch := sl.map.originEpoch, window := decide (sl.context.state = .window)
              probeNumber := (p'.field.map ProbeField.number).getD 0
              probeAge := (p'.field.map ProbeField.age).getD 0
              echoNumber := (p'.echoField.map EchoField.number).getD 0
              echoAge := (p'.echoField.map EchoField.age).getD 0
              echoHold := (p'.echoField.map EchoField.hold).getD 0 })

/-- A completed cycle replaces the last emitted tag of each slot that has one; the others keep theirs. Where line-out is
still sending the frame with the phase-31 bytes, its tag bytes are known to have been sent from then on (R37; that the
completion waits to be taken is log entry 12). -/
def Obligations.CompletedCyclesReplaceTheRecord : Prop :=
  ∀ s : State, s.resetHeld = false →
    ∃ t, exec .transmitCycleComplete s = .next t ∧
      t = { s with slots := t.slots, output := { s.output with line := { s.output.line with
        frame := t.output.line.frame } } } ∧
      (s.output.line.frame = none → t.output.line.frame = none) ∧
      (∀ f, s.output.line.frame = some f →
        t.output.line.frame = some { f with tagsSent := f.tagsSent || s.lineTx.ending }) ∧
      ∀ i : Slot,
        (∀ e, s.slots[i].tx.completed = some e → t.slots[i] = { s.slots[i] with
          tx := { s.slots[i].tx with lastEmitted := some e, completed := none } }) ∧
        (s.slots[i].tx.completed = none → t.slots[i] = s.slots[i])

/-! ## Cycle reports and stream loss at a context -/

/-- A cycle report in IDLE, WINDOW or FAILED acts on defect now and the stream-loss mark alone (R74, R76, R94). That a
report made before an alignment loss counts as defect also while the slot's STREAM_LOSS still waits is log entry 24,
and that the oldest waiting report is taken is log entry 6. -/
def Obligations.ReportOutsideACheck : Prop :=
  ∀ (s : State) (i : Slot) (r : CycleReport) (rest : List CycleReport) (defect : Bool), s.resetHeld = false →
    s.slots[i].inFlight.reports = r :: rest → (defect = true ↔ countsAsDefect s i r) →
    (s.slots[i].context.state = .idle ∨ s.slots[i].context.state = .window ∨ s.slots[i].context.state = .failed) →
    ∃ t, exec (.cycleReport i) s = .next t ∧ SlotBecomes i s t (judgedSlot s i rest defect)

/-- A cycle report in SETTLING is judged for defect by R74 and evaluated by the first row of R81 that applies. That a
report made before an alignment loss counts as defect also while the slot's STREAM_LOSS still waits is log entry 24,
and that the oldest waiting report is taken is log entry 6. -/
def Obligations.ReportInSettling : Prop :=
  ∀ (s : State) (i : Slot) (r : CycleReport) (rest : List CycleReport) (defect : Bool) (e : MapEntry),
    s.resetHeld = false → s.slots[i].inFlight.reports = r :: rest → (defect = true ↔ countsAsDefect s i r) →
    s.slots[i].context.state = .settling → s.slots[i].map.entry = some e →
    let sl := judgedSlot s i rest defect
    let waits := fun reason => { sl with context := { sl.context with waitReason := reason } }
    ∃ t, exec (.cycleReport i) s = .next t ∧ OnlySlot i s t ∧
      (defect = true → t.slots[i] = waits .defect) ∧
      (defect = false → r.held = none → t.slots[i] = waits .noTag) ∧
      ∀ h, defect = false → r.held = some h →
        let wrongSource := matchResult e h.identity = .noMatch
        let wrongRoute := routeMatches e sl.map.route h r.protect = false
        (wrongSource → t.slots[i] = enterFailed (checkInputs s) i .misconnected sl) ∧
        (¬ wrongSource → h.windowFlag = true → t.slots[i] = waits .farWindow) ∧
        (¬ wrongSource → h.windowFlag = false → h.epoch ≠ sl.map.expectedEpoch → t.slots[i] = waits .staleEpoch) ∧
        (¬ wrongSource → h.windowFlag = false → h.epoch = sl.map.expectedEpoch → wrongRoute →
          t.slots[i] = enterFailed (checkInputs s) i .routeMismatch sl) ∧
        (¬ wrongSource → h.windowFlag = false → h.epoch = sl.map.expectedEpoch → ¬ wrongRoute →
          t.slots[i] = enterSoaking sl)

/-- A cycle report in SOAKING is evaluated by the first of rows 1 to 6 of R84 that applies, and by row 7 when none
does (R84, R86). It is judged for defect by R74. That a report made before an alignment loss counts as defect also
while the slot's STREAM_LOSS still waits is log entry 24, and that the oldest waiting report is taken is log entry
6. -/
def Obligations.ReportInSoaking : Prop :=
  ∀ (s : State) (i : Slot) (r : CycleReport) (rest : List CycleReport) (defect : Bool) (e : MapEntry) (h : HeldTag),
    s.resetHeld = false → s.slots[i].inFlight.reports = r :: rest → (defect = true ↔ countsAsDefect s i r) →
    s.slots[i].context.state = .soaking → s.slots[i].map.entry = some e → (r.heldChanged = true → r.held = some h) →
    let inp := checkInputs s
    let sl := judgedSlot s i rest defect
    let row1 := r.heldChanged = true ∧ matchResult e h.identity = .noMatch
    let row3 := r.heldChanged = true ∧ h.windowFlag = true
    let row4 := r.heldChanged = true ∧ h.epoch ≠ sl.map.expectedEpoch
    let row5 := r.heldChanged = true ∧ routeMatches e sl.map.route h r.protect = false
    let row6 := r.protectChanged = true
    let errored := r.result ≠ .valid ∨ 0 < r.parityErrors
    let counted := { sl with context :=
      { sl.context with erroredCount := if sl.context.erroredCount < 65535 then sl.context.erroredCount + 1
                                        else sl.context.erroredCount } }
    ∃ t, exec (.cycleReport i) s = .next t ∧ OnlySlot i s t ∧
      (row1 → t.slots[i] = enterFailed inp i .misconnected sl) ∧
      (¬ row1 → defect = true → t.slots[i] = checkRestart inp i .restartDefect sl) ∧
      (¬ row1 → defect = false → row3 → t.slots[i] = checkRestart inp i .restartFarWindow sl) ∧
      (¬ row1 → defect = false → ¬ row3 → row4 → t.slots[i] = enterFailed inp i .staleEpoch sl) ∧
      (¬ row1 → defect = false → ¬ row3 → ¬ row4 → row5 → t.slots[i] = enterFailed inp i .routeMismatch sl) ∧
      (¬ row1 → defect = false → ¬ row3 → ¬ row4 → ¬ row5 →
        (row6 → t.slots[i] = checkRestart inp i .restartProtect sl) ∧
        (¬ row6 → errored → inp.profiles[e.profile].erroredAllowance < counted.context.erroredCount →
          t.slots[i] = enterFailed inp i .errors counted) ∧
        (¬ row6 → errored → counted.context.erroredCount ≤ inp.profiles[e.profile].erroredAllowance →
          t.slots[i] = counted) ∧
        (¬ row6 → ¬ errored → t.slots[i] = sl))

/-- A cycle report in VERIFIED is tested for the changes of R90 in their order; when none applies the slot stays
VERIFIED, a protect change resets the filter and the strikes, the defect timer runs on, starts or stops, and an
errored cycle is counted (R86, R90, R91). It is judged for defect by R74. That a report made before an alignment loss
counts as defect also while the slot's STREAM_LOSS still waits is log entry 24, and that the oldest waiting report is
taken is log entry 6. -/
def Obligations.ReportInVerified : Prop :=
  ∀ (s : State) (i : Slot) (r : CycleReport) (rest : List CycleReport) (defect : Bool) (e : MapEntry) (h : HeldTag),
    s.resetHeld = false → s.slots[i].inFlight.reports = r :: rest → (defect = true ↔ countsAsDefect s i r) →
    s.slots[i].context.state = .verified → s.slots[i].map.entry = some e → (r.heldChanged = true → r.held = some h) →
    let inp := checkInputs s
    let sl := judgedSlot s i rest defect
    let row1 := r.heldChanged = true ∧ matchResult e h.identity = .noMatch
    let row2 := r.heldChanged = true ∧ h.windowFlag = true
    let row3 := r.heldChanged = true ∧ h.epoch ≠ sl.map.expectedEpoch
    let row4 := r.heldChanged = true ∧ routeMatches e sl.map.route h r.protect = false
    let errored := r.result ≠ .valid ∨ 0 < r.parityErrors
    ∃ t, exec (.cycleReport i) s = .next t ∧ OnlySlot i s t ∧
      (row1 → t.slots[i] = enterFailed inp i .misconnected sl) ∧
      (¬ row1 → row2 → t.slots[i] = checkRestart inp i .restartFarWindow sl) ∧
      (¬ row1 → ¬ row2 → row3 → t.slots[i] = enterFailed inp i .staleEpoch sl) ∧
      (¬ row1 → ¬ row2 → ¬ row3 → row4 → t.slots[i] = enterFailed inp i .routeMismatch sl) ∧
      (¬ row1 → ¬ row2 → ¬ row3 → ¬ row4 →
        ∃ strikes timer errors resets,
          t.slots[i] = { sl with
            context := { sl.context with strikes := strikes, defectTimer := timer, erroredCount := errors }
            inFlight := { sl.inFlight with filterResets := resets } } ∧
          (r.protectChanged = true → strikes = 0 ∧ resets = sl.inFlight.filterResets ++ [.protectChanged]) ∧
          (r.protectChanged = false → strikes = sl.context.strikes ∧ resets = sl.inFlight.filterResets) ∧
          (defect = true → s.slots[i].context.defectNow = true → timer = sl.context.defectTimer) ∧
          (defect = true → s.slots[i].context.defectNow = false → timer = 0) ∧ (defect = false → timer = 0) ∧
          (errored → errors = if sl.context.erroredCount < 65535 then sl.context.erroredCount + 1
                              else sl.context.erroredCount) ∧
          (¬ errored → errors = sl.context.erroredCount))

/-- Stream loss sets the stream-loss mark and defect now in every state, and acts by state (R75). -/
def Obligations.StreamLossActsByState : Prop :=
  ∀ (s : State) (i : Slot), s.resetHeld = false → 0 < s.slots[i].inFlight.losses →
    let c := s.slots[i].context
    let sl := { s.slots[i] with
      context := { c with lossMark := true, defectNow := true }
      inFlight := { s.slots[i].inFlight with losses := s.slots[i].inFlight.losses - 1 } }
    ∃ t, exec (.streamLoss i) s = .next t ∧ OnlySlot i s t ∧
      (c.state = .idle ∨ c.state = .window ∨ c.state = .failed → t.slots[i] = sl) ∧
      (c.state = .settling → t.slots[i] = { sl with context := { sl.context with waitReason := .defect } }) ∧
      (c.state = .soaking → t.slots[i] = checkRestart (checkInputs s) i .restartDefect sl) ∧
      (c.state = .verified → c.defectNow = true → t.slots[i] = sl) ∧
      (c.state = .verified → c.defectNow = false →
        t.slots[i] = { sl with context := { sl.context with defectTimer := 0 } })

/-- An accepted sample at a context changes nothing outside VERIFIED; in VERIFIED it tests the shift against the
reference of the side that the tag receiver holds at this moment, counting or clearing strikes, or learns a missing
baseline of that side (R51, R92, R133, R134). That the side held now is read also while a protect-changed report
waits, where R101 speaks of the old side, is log entry 23. While the reset that such a report asked for waits nothing
changes (R101; log entry 23). -/
def Obligations.AcceptedSampleTestsTheShift : Prop :=
  ∀ (s : State) (i : Slot), s.resetHeld = false → 0 < s.slots[i].inFlight.samples →
    let inp := checkInputs s
    let sl := { s.slots[i] with
      inFlight := { s.slots[i].inFlight with samples := s.slots[i].inFlight.samples - 1 } }
    let held := sl.tag.heldProtect
    ∃ t, exec (.acceptedSample i) s = .next t ∧ OnlySlot i s t ∧
      (sl.context.state ≠ .verified ∨ sl.probe.average = none ∨ .protectChanged ∈ sl.inFlight.filterResets →
        t.slots[i] = sl) ∧
      ∀ a e, sl.context.state = .verified → sl.probe.average = some a → .protectChanged ∉ sl.inFlight.filterResets →
        sl.map.entry = some e →
        let p := s.profiles[e.profile]
        (e.delay = .none → t.slots[i] = sl) ∧
        (∀ ref, (e.delay = .fixed ref ∨ e.delay = .baseline ∧ baselineOf sl.map held = some ref) →
          let strikes := if p.tolerance < ((a : Int) - (ref : Int)).natAbs then sl.context.strikes + 1 else 0
          let struck := { sl with context := { sl.context with strikes := strikes } }
          (strikes < p.shiftPersistence → t.slots[i] = struck) ∧
          (p.shiftPersistence ≤ strikes → t.slots[i] = enterFailed inp i .delayShift struck)) ∧
        (e.delay = .baseline → baselineOf sl.map held = none →
          (p.minSamples ≤ sl.probe.sampleCount → t.slots[i] = { sl with map := writeBaseline sl.map held a }) ∧
          (sl.probe.sampleCount < p.minSamples → t.slots[i] = sl))

/-! ## The probe engine and the trail map taking requests -/

/-- A withdraw request frees the slot's probe table entry and its probe field without any count; a filter reset
request empties the slot's filter and touches no entry; a baseline write sets the baseline of the captured side to the
captured value and leaves the other (R51, R77, R113, R114). That the oldest waiting one is taken is log entry 6. -/
def Obligations.RequestsOfTheContextsAreTaken : Prop :=
  ∀ (s : State) (i : Slot), s.resetHeld = false →
    let sl := s.slots[i]
    let q := sl.inFlight
    (0 < q.withdraws → ∃ t, exec (.withdrawRequest i) s = .next t ∧
      (∀ k : Fin 8, t.probe.table[k] = s.probe.table[k].bind fun e => if e.slot = i then none else some e) ∧
      t = { s with slots := t.slots, probe := { s.probe with table := t.probe.table } } ∧
      (∀ j, j ≠ i → t.slots[j] = s.slots[j]) ∧
      t.slots[i] = { sl with
        probe := { sl.probe with field := none }, inFlight := { q with withdraws := q.withdraws - 1 } }) ∧
    (∀ reason left, q.filterResets = reason :: left → ∃ t, exec (.filterResetRequest i) s = .next t ∧
      SlotBecomes i s t { sl with
        probe := { sl.probe with average := none, sampleCount := 0 }
        inFlight := { q with filterResets := left } }) ∧
    ∀ side value rest, q.baselines = (side, value) :: rest → ∃ t, exec (.baselineWrite i) s = .next t ∧
      SlotBecomes i s t { sl with
        map := match side with
          | .working => { sl.map with workingBaseline := some value }
          | .protect => { sl.map with protectBaseline := some value }
        inFlight := { q with baselines := rest } }

/-- The probe and echo fields of a valid tag at an ORIGINATE slot. An echo that matches the slot's IN_FLIGHT entry
frees it and gives a sample, which enters the filter and is handed on when it is below 2^20 and is counted rejected
otherwise; with an EMPTY entry none is computed. An echo that matches none is late when its number is new. A new
far-end probe number becomes the pending echo with its effective receive stamp. At a slot of another role they change
nothing (R115, R116, R119, R120, R126, R127, R129, R130). That the oldest waiting hand-off is taken is log entry 6. -/
def Obligations.EchoReceiptMatchesTheEntry : Prop :=
  ∀ (s : State) (i : Slot) (h : EchoHandoff) (rest : List EchoHandoff), s.resetHeld = false →
    s.slots[i].inFlight.echoes = h :: rest → OneEntryPerSlot s →
    let sl := s.slots[i]
    let matched := ∃ (k : Fin 8) (e : ProbeEntry) (launch : Stamp),
      s.probe.table[k] = some e ∧ e.slot = i ∧ e.number = h.echoNumber ∧ e.launch = some launch
    ∃ t, exec (.echoReceipt i) s = .next t ∧
      (sl.map.txRole ≠ .originate →
        SlotBecomes i s t { sl with inFlight := { sl.inFlight with echoes := rest } }) ∧
      (sl.map.txRole = .originate →
      t = { s with slots := t.slots, probe := { s.probe with
        table := t.probe.table, late := t.probe.late, rejected := t.probe.rejected } } ∧
      (∀ j, j ≠ i → t.slots[j] = s.slots[j]) ∧
      t.slots[i] = { sl with
        probe := { sl.probe with
          lastEcho := if h.echoNumber = 0 then sl.probe.lastEcho else h.echoNumber
          lastResponded := t.slots[i].probe.lastResponded, pendingEcho := t.slots[i].probe.pendingEcho
          average := t.slots[i].probe.average, sampleCount := t.slots[i].probe.sampleCount }
        inFlight := { sl.inFlight with echoes := rest, samples := t.slots[i].inFlight.samples } } ∧
      (h.probeNumber ≠ 0 → h.probeNumber ≠ sl.probe.lastResponded →
        t.slots[i].probe.lastResponded = h.probeNumber ∧
        ∃ r : Stamp, t.slots[i].probe.pendingEcho = some { number := h.probeNumber, received := r } ∧
          (r.toNat : Int) = ((h.cycleStart.toNat : Int) - h.probeAge * 16384) % 4294967296) ∧
      (h.probeNumber = 0 ∨ h.probeNumber = sl.probe.lastResponded →
        t.slots[i].probe.lastResponded = sl.probe.lastResponded ∧
        t.slots[i].probe.pendingEcho = sl.probe.pendingEcho) ∧
      let filterKept := t.slots[i].probe.average = sl.probe.average ∧
        t.slots[i].probe.sampleCount = sl.probe.sampleCount ∧ t.slots[i].inFlight.samples = sl.inFlight.samples
      (h.echoNumber = 0 → t.probe = s.probe ∧ filterKept) ∧
      (h.echoNumber ≠ 0 → ¬ matched → filterKept ∧ t.probe = { s.probe with
        late := if h.echoNumber ≠ sl.probe.lastEcho ∧ s.probe.late < 65535 then s.probe.late + 1
                else s.probe.late }) ∧
      ∀ (k : Fin 8) (e : ProbeEntry) (launch : Stamp), h.echoNumber ≠ 0 → s.probe.table[k] = some e → e.slot = i →
        e.number = h.echoNumber → e.launch = some launch →
        t.probe.table = s.probe.table.set k none ∧ t.probe.late = s.probe.late ∧
        (sl.map.entry = none → filterKept ∧ t.probe.rejected = s.probe.rejected) ∧
        ∀ (entry : MapEntry) (sample : Nat), sl.map.entry = some entry →
          (sample : Int) = ((h.cycleStart.toNat : Int) - h.echoAge * 16384 - launch.toNat - h.echoHold) % 4294967296 →
          (1048576 ≤ sample → filterKept ∧
            t.probe.rejected = if s.probe.rejected < 65535 then s.probe.rejected + 1 else s.probe.rejected) ∧
          (sample < 1048576 → t.probe.rejected = s.probe.rejected ∧
            t.slots[i].inFlight.samples = sl.inFlight.samples + 1 ∧
            t.slots[i].probe.sampleCount =
              (if sl.probe.sampleCount < 65535 then sl.probe.sampleCount + 1 else sl.probe.sampleCount) ∧
            (sl.probe.average = none → t.slots[i].probe.average = some (16 * sample)) ∧
            ∀ a, sl.probe.average = some a → t.slots[i].probe.average = some
              ((a : Int) + roundHalfEven (16 * (sample : Int) - a) (2 ^ s.profiles[entry.profile].filterWeight)).toNat))

/-! ## The report unit -/

/-- A finding taken at the report unit: its class, the detected flag, ALERT, and the queue, in which the slot's record is
replaced in place or appended at the tail when the class is enabled, with finding pending set (R140, R143, R144, R145,
R97). -/
def Obligations.FindingIsClassedFlaggedAndQueued : Prop :=
  ∀ (s : State) (i : Slot) (f : Finding) (rest : List Finding) (cls : FindingClass), s.resetHeld = false →
    s.slots[i].inFlight.findings = f :: rest →
    (f.cause = none → cls = .info) →
    (∀ c, f.cause = some c → cls = match s.report.settings.severity[causeIndex c] with
      | .minor => .minor
      | .major => .major
      | .critical => .critical) →
    let enabled := match cls with
      | .info => s.report.settings.reportInfo
      | .minor => s.report.settings.report.minor
      | .major => s.report.settings.report.major
      | .critical => s.report.settings.report.critical
    ∃ t, exec (.finding i) s = .next t ∧ t = { s with report := t.report, slots := t.slots } ∧
      t.report.settings = s.report.settings ∧
      t.report.seen = { minor := s.report.seen.minor || cls == .minor, major := s.report.seen.major || cls == .major
                        critical := s.report.seen.critical || cls == .critical } ∧
      t.report.alert = ((t.report.seen.minor && s.report.settings.alertEnable.minor) ||
        (t.report.seen.major && s.report.settings.alertEnable.major) ||
        (t.report.seen.critical && s.report.settings.alertEnable.critical)) ∧
      (enabled = false → t.report.queue = s.report.queue) ∧
      (enabled = true → (∀ q ∈ s.report.queue, q.finding.slot ≠ f.slot) →
        t.report.queue = s.report.queue ++ [{ finding := f, cls := cls, superseded := 0 }]) ∧
      (enabled = true → OneRecordPerSlot s → ∀ before q after, s.report.queue = before ++ q :: after →
        q.finding.slot = f.slot →
        t.report.queue = before ++
          { finding := f, cls := cls, superseded := if q.superseded < 255 then q.superseded + 1 else q.superseded } ::
          after) ∧
      ∀ j : Slot, t.slots[j] = { s.slots[j] with
        context := { s.slots[j].context with
          findingPending := s.slots[j].context.findingPending || (enabled && j == f.slot) }
        inFlight := { s.slots[j].inFlight with findings := if j = i then rest else s.slots[j].inFlight.findings } }

/-- A notice starts on the report side when its arbiter is idle with a position left and neither buffer holds a frame: the
head record leaves the queue, its slot's finding pending is cleared, the notice carries the sequence count, and the count
advances. Its payload is the record in the layout of R142 (R139, R142, R146, R147, R160, R161). That `skip` positions pass
idle before it is the command's operand, log entry 11. -/
def Obligations.NoticeStartSendsTheHeadRecord : Prop :=
  ∀ (s : State) (skip : Nat) (q : QueuedFinding) (queue : List QueuedFinding) (node dest : Half) (f : OutFrame),
    s.resetHeld = false → s.report.queue = q :: queue → s.management.identity = some node →
    s.report.settings.destination = some dest →
    let side := s.report.settings.side
    s.management.arbiter.get side = none → (∀ bs, s.management.forward.get side ≠ .holding bs) →
    (∀ bs m, s.management.reply.get side ≠ .holding bs m) → HasPosition s side f skip →
    ∃ t, exec (.noticeStart skip) s = .next t ∧
      StartedSending s t side f skip .notice
        (buildFrame dest node 0x03 s.management.noticeSequence (recordBytes q)) ∧
      t = { s with
        slots := t.slots, output := t.output, report := { s.report with queue := queue }
        management := { s.management with
          noticeSequence := s.management.noticeSequence + 1, arbiter := t.management.arbiter } } ∧
      (∀ j : Slot, t.slots[j] = { s.slots[j] with context := { s.slots[j].context with
        findingPending := if j = q.finding.slot then false else s.slots[j].context.findingPending } }) ∧
      let d := recordBytes q
      let x := q.finding
      let wide := fun k n : Nat => (d.drop k).take n
      let flag := (byteAt d 10).getLsbD
      d.length = 29 ∧ (byteAt d 0).toNat = x.slot.val ∧
      byteAt d 1 = (match x.kind with
        | .verified => 0x01
        | .failed => 0x02
        | .restarted => 0x03) ∧
      byteAt d 2 = (match x.cause with
        | none => 0x00
        | some .noTag => 0x01
        | some .defect => 0x02
        | some .farWindow => 0x03
        | some .staleEpoch => 0x04
        | some .misconnected => 0x05
        | some .routeMismatch => 0x06
        | some .errors => 0x07
        | some .unstable => 0x08
        | some .noDelay => 0x09
        | some .delayShift => 0x0A
        | some .restartDefect => 0x0B
        | some .restartFarWindow => 0x0C
        | some .restartProtect => 0x0D) ∧
      byteAt d 3 = (match q.cls with
        | .info => 0x00
        | .minor => 0x01
        | .major => 0x02
        | .critical => 0x03) ∧
      halfAt d 4 = x.epoch ∧ halfAt d 6 ++ halfAt d 8 = x.clock ∧
      (flag 0 = x.identity.isSome ∧ flag 1 = x.average.isSome ∧ flag 2 = x.shift.isSome ∧ flag 3 = x.baselineSet ∧
        (flag 4 = true ↔ ∃ v, x.shift = some (v, true)) ∧ ∀ k, 5 ≤ k → flag k = false) ∧
      (x.identity = none → wide 11 5 = List.replicate 5 0) ∧
      (∀ y, x.identity = some y → halfAt d 11 = y.node ∧ byteAt d 13 = y.port ∧ halfAt d 14 = y.trail) ∧
      byteAt d 16 = (match x.result with
        | none => 0x00
        | some .noMatch => 0x00
        | some .matched => 0x01
        | some .matchedA => 0x02
        | some .matchedB => 0x03) ∧
      halfAt d 17 = BitVec.ofNat 16 x.erroredCount ∧ byteAt d 19 = BitVec.ofNat 8 x.restartCount ∧
      wide 20 3 = beBytes 3 (x.average.getD 0) ∧ wide 23 3 = beBytes 3 (x.oneWay.getD 0) ∧
      (x.shift = none → halfAt d 26 = 0) ∧
      (∀ v saturated, x.shift = some (v, saturated) → halfAt d 26 = BitVec.ofInt 16 v) ∧
      byteAt d 28 = BitVec.ofNat 8 q.superseded

/-! ## The management channel -/

/-- A frame built by the part has the layout of R152 and a correct check. A channel receiver in SEARCH passes over every
byte but C3h, which starts a frame; in COLLECT it abandons a frame whose length byte is above 200; and a built frame it
collects whole, whatever follows the frames before it. The reply to a command has its fields, the command code as received
or 00h, the outcome code and the data (R152, R153, R154, R159). -/
def Obligations.ManagementFramesAndRepliesHaveTheirForm : Prop :=
  (∀ (done : List (List Byte)) (b : Byte),
    channelByte { taken := none, completed := done } b =
      { taken := if b = 0xC3 then some [0xC3] else none, completed := done }) ∧
  (∀ (done : List (List Byte)) (bs : List Byte) (b : Byte), bs.length = 7 → 200 < b.toNat →
    channelByte { taken := some bs, completed := done } b = { taken := none, completed := done }) ∧
  (∀ (dest source : Half) (kind seq : Byte) (payload : List Byte) (done : List (List Byte)), payload.length ≤ 200 →
     let bs := buildFrame dest source kind seq payload
     bs.length = 10 + payload.length ∧ byteAt bs 0 = 0xC3 ∧ halfAt bs 1 = dest ∧ halfAt bs 3 = source ∧
     byteAt bs 5 = kind ∧ byteAt bs 6 = seq ∧ (byteAt bs 7).toNat = payload.length ∧ framePayload bs = payload ∧
     halfAt bs (8 + payload.length) = checkOf ((bs.drop 1).take (7 + payload.length)) ∧ frameGood bs = true ∧
     channelBytes { taken := none, completed := done } bs = { taken := none, completed := done ++ [bs] }) ∧
  ∀ (identity : Option Half) (dest : Half) (seq : Byte) (command data : List Byte) (outcome : ReplyOutcome),
    data.length ≤ 198 →
    let bs := replyFrame identity dest seq command outcome data
    halfAt bs 1 = dest ∧ (identity = none → halfAt bs 3 = 65535) ∧ (∀ node, identity = some node → halfAt bs 3 = node) ∧
    byteAt bs 5 = 0x02 ∧ byteAt bs 6 = seq ∧ (byteAt bs 7).toNat = 2 + data.length ∧ frameGood bs = true ∧
    framePayload bs = command.headD 0x00 :: (match outcome with
      | .done => 0x00
      | .state => 0x01
      | .value => 0x02
      | .pool => 0x03
      | .identity => 0x04
      | .unknown => 0x05
      | .malformed => 0x06) :: data

/-- A completed frame is judged by its check, a good one by the address filter; a command that is obeyed is judged
against its side's reply buffer, and the interpreter answers MALFORMED and UNKNOWN itself (R154, R156, R157, R158,
R164). That the oldest completed frame of a receiver is judged first is log entry 6. -/
def Obligations.ManagementFrameIsFiltered : Prop :=
  ∀ (s : State) (side : Side) (bs : List Byte) (rest : List (List Byte)), s.resetHeld = false →
    (s.management.channel.get side).completed = bs :: rest →
    let m := { s.management with
      channel := s.management.channel.set side { s.management.channel.get side with completed := rest } }
    let inc := fun n : Nat => if n < 65535 then n + 1 else n
    let dest := halfAt bs 1
    let command := byteAt bs 5 = 0x01
    let payload := framePayload bs
    let good := checkOf ((bs.drop 1).take (7 + (byteAt bs 7).toNat)) = halfAt bs (8 + (byteAt bs 7).toNat)
    let obeyed := command ∧ (dest = 65535 ∧ side = .drop ∨ dest ≠ 65535 ∧ s.management.identity = some dest)
    let forwarded := dest ≠ 65535 ∧ s.management.identity ≠ some dest
    let answered := fun outcome => { m with reply := m.reply.set side (.holding
      (replyFrame m.identity (halfAt bs 3) (byteAt bs 6) payload outcome []) false) }
    ∃ m', exec (.managementFrame side) s = .next { s with management := m' } ∧
      (¬ good → m' = { m with checkErrors := inc m.checkErrors }) ∧
      (good → ¬ obeyed → ¬ forwarded → m' = m) ∧
      (good → forwarded →
        (m.forward.get (opposite side) = .free →
          m' = { m with forward := m.forward.set (opposite side) (.holding bs) }) ∧
        (m.forward.get (opposite side) ≠ .free → m' = { m with forwardDiscards := inc m.forwardDiscards })) ∧
      (good → obeyed →
        (m.reply.get side ≠ .free → m' = { m with commandDiscards := inc m.commandDiscards }) ∧
        (m.reply.get side = .free → payload = [] → m' = answered .malformed) ∧
        (m.reply.get side = .free → payload ≠ [] → commandOf (byteAt payload 0) = none → m' = answered .unknown) ∧
        ∀ c, m.reply.get side = .free → payload ≠ [] → commandOf (byteAt payload 0) = some c →
          (lengthRight c payload = false → m' = answered .malformed) ∧
          (lengthRight c payload = true → m' = { m with
            reply := m.reply.set side .reserved
            requests := m.requests ++ [{ side := side, command := c, source := halfAt bs 3, sequence := byteAt bs 6,
                                         payload := payload, todo := blocksOf c payload, data := [], live := true }] }))

/-- The seventeen command codes with their payload lengths; every other code is unknown. READ STATUS is sent to each of the
nine blocks, CLEAR DETECTED to each block that owns a selected item, and the others to their one owner alone (R164, R166,
R180). -/
def Obligations.CommandCodesLengthsAndBlocks : Prop :=
  let table : List (Nat × Command × Nat) :=
    [(0x10, .setNodeIdentity, 3), (0x11, .readStatus, 1), (0x20, .openWindow, 3), (0x21, .closeWindow, 5),
      (0x30, .setSlotRoles, 7), (0x31, .loadMapEntry, 22), (0x32, .clearMapEntry, 2), (0x40, .setProfile, 15),
      (0x41, .setProbing, 3), (0x42, .setReporting, 19), (0x50, .reverify, 2), (0x60, .queryTrail, 2),
      (0x61, .queryTag, 3), (0x62, .queryRoute, 2), (0x70, .clearDetected, 3), (0x7F, .restart, 1)]
  (∀ row ∈ table, commandOf (BitVec.ofNat 8 row.1) = some row.2.1 ∧
    ∀ p : List Byte, lengthRight row.2.1 p = decide (p.length = row.2.2)) ∧
  commandOf 0x33 = some .linkRoute ∧
  (∀ p : List Byte, lengthRight .linkRoute p = decide (3 ≤ p.length ∧ p.length = 3 + 3 * (byteAt p 2).toNat)) ∧
  (∀ b : Byte, b ≠ 0x33 → (∀ row ∈ table, b ≠ BitVec.ofNat 8 row.1) → commandOf b = none) ∧
  ∀ p : List Byte,
    let bit := fun k n : Nat => (byteAt p k).getLsbD n = true
    (∀ c, c ≠ .readStatus → c ≠ .clearDetected → blocksOf c p = []) ∧
    (blocksOf .readStatus p).Nodup ∧ (∀ block : Block, block ∈ blocksOf .readStatus p) ∧
    (blocksOf .clearDetected p).Nodup ∧
    ∀ block : Block, block ∈ blocksOf .clearDetected p ↔
      block = .reportUnit ∧ (bit 1 0 ∨ bit 1 1 ∨ bit 1 2) ∨ block = .managementUnit ∧ (bit 1 3 ∨ bit 1 4 ∨ bit 1 5) ∨
      block = .probeEngine ∧ (bit 1 6 ∨ bit 1 7 ∨ bit 2 0)

/-- An idle arbiter with a position left starts the forward frame that is HOLDING, else the reply that is HOLDING, which
becomes SENDING, after `skip` positions of 00h (R157, R158, R160; that the position is the command's operand is log entry
11). -/
def Obligations.ArbiterStartsTheWaitingFrame : Prop :=
  ∀ (s : State) (side : Side) (skip : Nat) (f : OutFrame), s.resetHeld = false →
    s.management.arbiter.get side = none → HasPosition s side f skip →
    ∃ t, exec (.arbiterFrameStart side skip) s = .next t ∧
      (∀ bs, s.management.forward.get side = .holding bs →
        StartedSending s t side f skip .forward bs ∧
        t = { s with output := t.output, management := { s.management with
          arbiter := t.management.arbiter, forward := s.management.forward.set side .sending } }) ∧
      (∀ bs m, (∀ x, s.management.forward.get side ≠ .holding x) → s.management.reply.get side = .holding bs m →
        StartedSending s t side f skip .reply bs ∧
        t = { s with output := t.output, management := { s.management with
          arbiter := t.management.arbiter, reply := s.management.reply.set side (.sending m) } }) ∧
      ((∀ x, s.management.forward.get side ≠ .holding x) → (∀ x m, s.management.reply.get side ≠ .holding x m) → t = s)

/-- The last byte of a frame is placed, with those before it for which the output frame has positions left: the arbiter is
idle and the buffer the frame came from is FREE. The last byte of a RESTART reply is RESTART_TAKES_EFFECT's (R157, R158,
R160). That the end of a frame whose last byte has been placed waits to be taken is log entry 11. -/
def Obligations.ArbiterEndsItsFrame : Prop :=
  ∀ (s : State) (side : Side) (source : FrameSource) (rest : List Byte), s.resetHeld = false →
    s.management.arbiter.get side = some { source := source, rest := rest } →
    (source = .reply → s.management.reply.get side ≠ .sending true) →
    (rest = [] ∨ ∃ f, (s.output.get side).frame = some f ∧ f.cut = none ∧ f.placed.length + rest.length ≤ 4) →
    ∃ t, exec (.arbiterFrameEnd side) s = .next t ∧
      (rest = [] → t.output = s.output ∧ t.management.arbiter.get side = none) ∧
      (∀ f, (s.output.get side).frame = some f → PlacedLast s t side f rest) ∧
      t = { s with
        output := s.output.set side (t.output.get side)
        management := { s.management with
          arbiter := s.management.arbiter.set side (t.management.arbiter.get side)
          forward := if source = .forward then s.management.forward.set side .free else s.management.forward
          reply := if source = .reply then s.management.reply.set side .free else s.management.reply } }

/-! ## Restart -/

/-- RESTART is answered DONE by a reply that is marked as the one whose last byte makes the restart take effect. With
that byte, both outputs' buffers are FREE and arbiters idle, the other output's arbiter stopping after the positions
reached, the counts are 0, the outcomes of waiting requests are discarded, and every block has its restart event; the
node identity and the channel receivers are kept. Where the other side's RESTART reply has ended by then, its restart
takes effect as an event of its own (R163, R181, R182). That the operand says how far the other output has come is log
entry 3, that an arbiter whose frame has ended places 00h until its end is taken is log entry 11, and that the second
restart waits until it is taken is log entry 19. That the oldest waiting request of a side and code is the one taken
is log entry 6. -/
def Obligations.RestartIsAnsweredAndTakesEffect : Prop :=
  (∀ (s : State) (side : Side) (r : Request), s.resetHeld = false → findRequest s side .restart = some r →
    ∃ t, exec (.restart side) s = .next t ∧ Replied side .restart r .done [] true s t ∧
      t = { s with management := t.management } ∧ OnlyReplies s.management t.management) ∧
  ∀ (s : State) (side : Side) (sent : Nat) (rest : List Byte), s.resetHeld = false →
    let other := opposite side
    let ended := s.management.restartEnded.get side
    (ended = false →
      s.management.reply.get side = .sending true ∧
      s.management.arbiter.get side = some { source := .reply, rest := rest } ∧
      (rest = [] ∨ ∃ f, (s.output.get side).frame = some f ∧ f.cut = none ∧ f.placed.length + rest.length ≤ 4)) →
    ∃ t, exec (.restartTakesEffect { side := side, sent := sent }) s = .next t ∧
      (∀ f, (s.output.get side).frame = some f → ended = false →
        t.output.get side = { s.output.get side with frame := some { f with placed := f.placed ++ rest } }) ∧
      (ended = true ∨ (s.output.get side).frame = none → t.output.get side = s.output.get side) ∧
      ((s.output.get other).frame = none → t.output.get other = s.output.get other) ∧
      (∀ f, (s.output.get other).frame = some f →
        ∃ bs after, Fills (s.management.arbiter.get other) (toReach f sent) bs after ∧
          t.output.get other = { s.output.get other with frame := some { f with placed := f.placed ++ bs } }) ∧
      t.management = { s.management with
        forward := ⟨.free, .free⟩, reply := ⟨.free, .free⟩, arbiter := ⟨none, none⟩, checkErrors := 0
        commandDiscards := 0, forwardDiscards := 0, noticeSequence := 0
        requests := s.management.requests.map fun r => { r with live := false }
        restartEnded := t.management.restartEnded } ∧
      t.management.restartEnded.get side = false ∧
      (t.management.restartEnded.get other = true ↔ s.management.restartEnded.get other = true ∨
        s.management.reply.get other = .sending true ∧
        ∃ left, s.management.arbiter.get other = some { source := .reply, rest := left } ∧
          (left = [] ∨ ∃ f, (s.output.get other).frame = some f ∧ left.length ≤ toReach f sent)) ∧
      t.restartsDue =
        { tagReceiver := s.restartsDue.tagReceiver + 1, lineTransmitter := s.restartsDue.lineTransmitter + 1
          probeEngine := s.restartsDue.probeEngine + 1, reportUnit := s.restartsDue.reportUnit + 1 } ∧
      (∀ i : Slot, t.slots[i] = { s.slots[i] with
        inFlight := { s.slots[i].inFlight with restarts := s.slots[i].inFlight.restarts + 1 } }) ∧
      t = { s with
        output := t.output, management := t.management, restartsDue := t.restartsDue, slots := t.slots }

/-- The restart at each block. At a context a slot that is being checked enters SETTLING with restart count 0, one in IDLE
or WINDOW stays, and every other field is kept. Finding pending becomes clear while the report unit's queue is as the
restart left it; the order in which the report unit has taken new findings first is log entry 17. At the tag receiver, the
line transmitter, the probe engine and the report unit each clears what its reset table says and keeps the rest (R31, R38,
R97, R103, R124, R138, R151, R181). -/
def Obligations.RestartReachesEachBlock : Prop :=
  (∀ (s : State) (i : Slot), s.resetHeld = false → 0 < s.slots[i].inFlight.restarts →
     (0 < s.restartsDue.reportUnit ∨ hasRecord s.report.queue i = false) →
     let sl := s.slots[i]
     let cleared := { sl with
       context := { sl.context with findingPending := false }
       inFlight := { sl.inFlight with restarts := sl.inFlight.restarts - 1 } }
     ∃ t, exec (.contextRestart i) s = .next t ∧ OnlySlot i s t ∧
       (sl.context.state = .idle ∨ sl.context.state = .window → t.slots[i] = cleared) ∧
       (sl.context.state ≠ .idle → sl.context.state ≠ .window → t.slots[i] = enterSettlingAfresh cleared)) ∧
  ∀ s : State, s.resetHeld = false →
    let d := s.restartsDue
    (0 < d.tagReceiver → ∃ t, exec .tagReceiverRestart s = .next t ∧
      t = { s with slots := t.slots, restartsDue := { d with tagReceiver := d.tagReceiver - 1 } } ∧
      ∀ i : Slot, t.slots[i] = { s.slots[i] with tag :=
        { assembly := Vector.replicate 32 none, slipMark := false, paritySum := 0, forwardDefectSeen := false,
          protectBit := false, runLength := 0, lastValid := none, held := none, tagLossCount := 0,
          heldProtect := .working, candidate := none, lastFault := none } }) ∧
    (0 < d.lineTransmitter → ∃ t, exec .lineTransmitterRestart s = .next t ∧
      t = { s with slots := t.slots, restartsDue := { d with lineTransmitter := d.lineTransmitter - 1 } } ∧
      ∀ i : Slot, t.slots[i] = { s.slots[i] with tx := { s.slots[i].tx with lastEmitted := none } }) ∧
    (0 < d.probeEngine → ∃ t, exec .probeEngineRestart s = .next t ∧
      t = { s with
        slots := t.slots, restartsDue := { d with probeEngine := d.probeEngine - 1 }
        probe := { s.probe with
          table := t.probe.table, rotationIndex := 127, intervalCount := 0, lost := 0, late := 0, rejected := 0 } } ∧
      (∀ k : Fin 8, t.probe.table[k] = none) ∧
      ∀ i : Slot, t.slots[i] = { s.slots[i] with probe :=
        { nextNumber := 1, field := none, lastEcho := 0, lastResponded := 0, pendingEcho := none, echoField := none,
          average := none, sampleCount := 0 } }) ∧
    (0 < d.reportUnit → ∃ t, exec .reportUnitRestart s = .next t ∧
      t = { s with
        slots := t.slots, restartsDue := { d with reportUnit := d.reportUnit - 1 }
        report := { s.report with queue := [] } } ∧
      ∀ i : Slot, t.slots[i] = { s.slots[i] with
        context := { s.slots[i].context with findingPending := false } })

/-! ## Commands -/

/-- SET NODE IDENTITY refuses 0 and 65535 with VALUE, then an identity that is set with IDENTITY, and otherwise sets
the identity, which its reply carries as source (R159, R165). That the oldest waiting request of a side and code is
the one taken is log entry 6. -/
def Obligations.NodeIdentityIsSetOnce : Prop :=
  ∀ (s : State) (side : Side) (r : Request), s.resetHeld = false →
    findRequest s side .setNodeIdentity = some r →
    let node := halfAt r.payload 1
    ∃ t, exec (.setNodeIdentity side) s = .next t ∧
      (node = 0 ∨ node = 65535 → Refused side .setNodeIdentity r .value [] s t) ∧
      (node ≠ 0 → node ≠ 65535 → s.management.identity ≠ none →
        Refused side .setNodeIdentity r .identity [] s t) ∧
      (node ≠ 0 → node ≠ 65535 → s.management.identity = none →
        Replied side .setNodeIdentity r .done [] false s t ∧ t.management.identity = some node ∧
        t = { s with management := { s.management with
          identity := t.management.identity, requests := t.management.requests, reply := t.management.reply } })

/-- OPEN WINDOW and CLOSE WINDOW act on a range of slots: a range past slot 127 is refused with VALUE; otherwise each
slot in it acts by its state, and the reply counts the slots changed and the rest. OPEN WINDOW takes every slot to
WINDOW, with a withdraw request from SOAKING and VERIFIED and the baseline capture from VERIFIED; CLOSE WINDOW writes
the epochs of the slots in WINDOW and takes them to SETTLING or IDLE (R77, R78, R79, R167, R168). That the oldest
waiting request of a side and code is the one taken is log entry 6. -/
def Obligations.WindowsOpenAndCloseOverARange : Prop :=
  ∀ (s : State) (side : Side) (r : Request), s.resetHeld = false →
    let first := (byteAt r.payload 1).toNat
    let count := (byteAt r.payload 2).toNat
    let within := fun i : Slot => first ≤ i.val ∧ i.val < first + count
    let answered := fun (c : Command) (changed : Nat) (t : State) =>
      Replied side c r .done [BitVec.ofNat 8 changed, BitVec.ofNat 8 (count - changed)] false s t ∧
      t = { s with slots := t.slots, management := t.management } ∧ OnlyReplies s.management t.management ∧
      ∀ i, ¬ within i → t.slots[i] = s.slots[i]
    (findRequest s side .openWindow = some r →
      ∃ t, exec (.openWindow side) s = .next t ∧
        (128 < first + count → Refused side .openWindow r .value [] s t) ∧
        (first + count ≤ 128 →
          answered .openWindow
            ((List.finRange 128).filter fun i =>
              decide (within i ∧ s.slots[i].context.state ≠ .window)).length t ∧
          ∀ i, within i →
            let sl := s.slots[i]
            let opened := { sl with context := { sl.context with state := .window } }
            let q := sl.inFlight
            (sl.context.state = .window → t.slots[i] = sl) ∧
            (sl.context.state = .idle ∨ sl.context.state = .settling ∨ sl.context.state = .failed →
              t.slots[i] = opened) ∧
            (sl.context.state = .soaking →
              t.slots[i] = { opened with inFlight := { q with withdraws := q.withdraws + 1 } }) ∧
            (sl.context.state = .verified →
              t.slots[i] = { opened with inFlight := { q with
                withdraws := q.withdraws + 1
                baselines := q.baselines ++
                  (if (slotProfile (checkInputs s) sl.map).minSamples ≤ sl.probe.sampleCount then
                    sl.probe.average.toList.map fun a => (sl.tag.heldProtect, a)
                   else []) } }))) ∧
    (findRequest s side .closeWindow = some r →
      ∃ t, exec (.closeWindow side) s = .next t ∧
        (128 < first + count → Refused side .closeWindow r .value [] s t) ∧
        (first + count ≤ 128 →
          answered .closeWindow
            ((List.finRange 128).filter fun i =>
              decide (within i ∧ s.slots[i].context.state = .window)).length t ∧
          ∀ i, within i →
            let sl := s.slots[i]
            let epoch := halfAt r.payload 3
            let closed := { sl with
              map := { sl.map with originEpoch := epoch, expectedEpoch := epoch }
              context := { sl.context with lastCause := none } }
            (sl.context.state ≠ .window → t.slots[i] = sl) ∧
            (sl.context.state = .window → sl.map.rxRole = .terminate → sl.map.entry ≠ none →
              t.slots[i] = enterSettlingAfresh closed) ∧
            (sl.context.state = .window → sl.map.rxRole = .monitor ∨ sl.map.entry = none →
              t.slots[i] = { closed with context := { closed.context with state := .idle } })))

/-- SET SLOT ROLES and LOAD MAP ENTRY are judged by the rows of R42 and R52 in their order. On DONE the roles and
origin values replace the old ones together; the entry of the chosen modes replaces the old one whole, the fixed delay
is clamped to 16,777,215 and returned, and the baselines are kept or cleared (R42, R43, R52, R169, R170). That the
oldest waiting request of a side and code is the one taken is log entry 6. -/
def Obligations.RolesAndEntriesAreEdited : Prop :=
  ∀ (s : State) (side : Side) (r : Request), s.resetHeld = false →
    let p := r.payload
    let number := (byteAt p 1).toNat
    let edited := fun (c : Command) (data : List Byte) (i : Slot) (t : State) (m : SlotMap) =>
      Replied side c r .done data false s t ∧ OnlyReplies s.management t.management ∧
      t = { s with slots := t.slots, management := t.management } ∧
      (∀ j : Slot, j ≠ i → t.slots[j] = s.slots[j]) ∧ t.slots[i] = { s.slots[i] with map := m }
    let identity := fun k => ({ node := halfAt p k, port := byteAt p (k + 2), trail := halfAt p (k + 3) } : Identity)
    (findRequest s side .setSlotRoles = some r →
      ∃ t, exec (.setSlotRoles side) s = .next t ∧
        (128 ≤ number → Refused side .setSlotRoles r .value [] s t) ∧
        ∀ i : Slot, i.val = number →
          let m := s.slots[i].map
          let coded := (byteAt p 2).toNat < 2 ∧ (byteAt p 3).toNat < 3
          (s.slots[i].context.state ≠ .window → Refused side .setSlotRoles r .state [] s t) ∧
          (s.slots[i].context.state = .window → ¬ coded → Refused side .setSlotRoles r .value [] s t) ∧
          (s.slots[i].context.state = .window → coded →
            let barred := byteAt p 3 ≠ 2 ∧ ∃ e, m.entry = some e ∧ e.delay ≠ .none
            (barred → Refused side .setSlotRoles r .value [] s t) ∧
            (¬ barred → edited .setSlotRoles [] i t { m with
              rxRole := if byteAt p 2 = 0 then .monitor else .terminate
              txRole := if byteAt p 3 = 0 then .carry else if byteAt p 3 = 1 then .stamp else .originate
              originPort := byteAt p 4, originTrail := halfAt p 5 }))) ∧
    (findRequest s side .loadMapEntry = some r →
      ∃ t, exec (.loadMapEntry side) s = .next t ∧
        (128 ≤ number → Refused side .loadMapEntry r .value [] s t) ∧
        ∀ i : Slot, i.val = number →
          let m := s.slots[i].map
          let coded := (byteAt p 2).toNat < 2 ∧ (byteAt p 3).toNat < 2 ∧ (byteAt p 4).toNat < 3 ∧
            (byteAt p 5).toNat < 8
          (s.slots[i].context.state ≠ .window → Refused side .loadMapEntry r .state [] s t) ∧
          (s.slots[i].context.state = .window → ¬ coded → Refused side .loadMapEntry r .value [] s t) ∧
          (s.slots[i].context.state = .window → coded →
            (byteAt p 4 ≠ 0 → m.txRole ≠ .originate → Refused side .loadMapEntry r .value [] s t) ∧
            ∀ delay : Nat, (byteAt p 4 = 0 ∨ m.txRole = .originate) →
              delay = min 16777215 ((halfAt p 18).toNat * 65536 + (halfAt p 20).toNat) →
              edited .loadMapEntry
                (if byteAt p 4 = 2 then
                  [BitVec.ofNat 8 (delay / 65536), BitVec.ofNat 8 (delay / 256), BitVec.ofNat 8 delay] else [])
                i t { m with
                  entry := some {
                    mode := if byteAt p 2 = 0 then .masked (identity 8) (identity 13)
                      else .listed (identity 8) (if byteAt p 7 = 0 then none else some (identity 13))
                    routeCheck := if byteAt p 3 = 0 then .none else .exact
                    delay := if byteAt p 4 = 0 then .none else if byteAt p 4 = 1 then .baseline else .fixed delay
                    profile := Fin.ofNat 8 (byteAt p 5).toNat }
                  workingBaseline := if byteAt p 6 = 0 then none else m.workingBaseline
                  protectBaseline := if byteAt p 6 = 0 then none else m.protectBaseline }))

/-- CLEAR MAP ENTRY empties the entry, clears both baselines and pushes the slot's route list onto the free list hop
by hop. LINK ROUTE is judged by the rows of R63; on DONE it frees the old list and pops an entry for each hop, in
order. Replies carry the free count, and the new indexes (R53, R61, R62, R63, R64, R66, R171, R172). That the oldest
waiting request of a side and code is the one taken is log entry 6. -/
def Obligations.RoutesAreFreedAndAllocated : Prop :=
  ∀ (s : State) (side : Side) (r : Request), s.resetHeld = false →
    let p := r.payload
    let number := (byteAt p 1).toNat
    let n := (byteAt p 2).toNat
    let count := fun k : Nat => [BitVec.ofNat 8 (k / 256), BitVec.ofNat 8 k]
    let edited := fun (c : Command) (data : List Byte) (i : Slot) (t : State) (m : SlotMap) =>
      Replied side c r .done data false s t ∧ OnlyReplies s.management t.management ∧
      t = { s with slots := t.slots, freeHops := t.freeHops, management := t.management } ∧
      (∀ j : Slot, j ≠ i → t.slots[j] = s.slots[j]) ∧ t.slots[i] = { s.slots[i] with map := m }
    (findRequest s side .clearMapEntry = some r →
      ∃ t, exec (.clearMapEntry side) s = .next t ∧
        (128 ≤ number → Refused side .clearMapEntry r .value [] s t) ∧
        ∀ i : Slot, i.val = number →
          let m := s.slots[i].map
          (s.slots[i].context.state ≠ .window → Refused side .clearMapEntry r .state [] s t) ∧
          (s.slots[i].context.state = .window →
            t.freeHops = (m.route.map Hop.index).reverse ++ s.freeHops ∧
            edited .clearMapEntry (count t.freeHops.length) i t
              { m with entry := none, workingBaseline := none, protectBaseline := none, route := [] })) ∧
    (findRequest s side .linkRoute = some r →
      ∃ t, exec (.linkRoute side) s = .next t ∧
        (128 ≤ number → Refused side .linkRoute r .value [] s t) ∧
        ∀ i : Slot, i.val = number →
          let m := s.slots[i].map
          let free := (m.route.map Hop.index).reverse ++ s.freeHops
          let hopsRight := n ≤ 6 ∧ ∀ k < n, halfAt p (3 + 3 * k) ≠ 0 ∧ halfAt p (3 + 3 * k) ≠ 65535 ∧
            (byteAt p (5 + 3 * k)).toNat < 3
          (s.slots[i].context.state ≠ .window → Refused side .linkRoute r .state [] s t) ∧
          (s.slots[i].context.state = .window → ¬ hopsRight → Refused side .linkRoute r .value [] s t) ∧
          (s.slots[i].context.state = .window → hopsRight →
            (free.length < n → Refused side .linkRoute r .pool (count s.freeHops.length) s t) ∧
            (n ≤ free.length →
              ∃ route : List Hop, route.map Hop.index = free.take n ∧ t.freeHops = free.drop n ∧
                (∀ k < n, ∃ h, route[k]? = some h ∧ h.node = halfAt p (3 + 3 * k) ∧
                  h.condition = if byteAt p (5 + 3 * k) = 0 then .always
                    else if byteAt p (5 + 3 * k) = 1 then .workingOnly else .protectOnly) ∧
                edited .linkRoute
                  (count (free.length - n) ++ (free.take n).map fun x => BitVec.ofNat 8 x.val) i t
                  { m with route := route })))

/-- SET PROFILE stores nine fields, each clamped to its range, and returns them; an index above 7 is refused. SET
PROBING stores the interval and the timeout clamped, and is never refused. SET REPORTING refuses a destination of 0 or
65535, a side code above 01h or a severity byte other than 01h to 03h, and otherwise replaces every setting and re-
evaluates ALERT (R55, R106, R144, R149, R173, R174, R175). That the oldest waiting request of a side and code is the
one taken is log entry 6. -/
def Obligations.SettingsAreStoredWithinTheirRanges : Prop :=
  ∀ (s : State) (side : Side) (r : Request), s.resetHeld = false →
    let p := r.payload
    let bytes2 := fun k : Nat => [BitVec.ofNat 8 (k / 256), BitVec.ofNat 8 k]
    (findRequest s side .setProfile = some r →
      ∃ t, exec (.setProfile side) s = .next t ∧
        (8 ≤ (byteAt p 1).toNat → Refused side .setProfile r .value [] s t) ∧
        ∀ k : Fin 8, k.val = (byteAt p 1).toNat →
          ∃ f : Profile, f =
            { settleLimit := max 1 (halfAt p 2).toNat, soakLength := max 1 (halfAt p 4).toNat
              erroredAllowance := (byteAt p 6).toNat, minSamples := max 1 (min 15 (byteAt p 7).toNat)
              restartBudget := min 7 (byteAt p 8).toNat, filterWeight := min 7 (byteAt p 9).toNat
              tolerance := min 32767 (halfAt p 10).toNat, shiftPersistence := max 1 (min 15 (byteAt p 12).toNat)
              defectHold := max 1 (halfAt p 13).toNat } ∧
          Replied side .setProfile r .done
            (bytes2 f.settleLimit ++ bytes2 f.soakLength ++
              [BitVec.ofNat 8 f.erroredAllowance, BitVec.ofNat 8 f.minSamples, BitVec.ofNat 8 f.restartBudget,
                BitVec.ofNat 8 f.filterWeight] ++
              bytes2 f.tolerance ++ [BitVec.ofNat 8 f.shiftPersistence] ++ bytes2 f.defectHold) false s t ∧
          OnlyReplies s.management t.management ∧
          t = { s with profiles := s.profiles.set k f, management := t.management }) ∧
    (findRequest s side .setProbing = some r →
      ∃ t, exec (.setProbing side) s = .next t ∧
        t.probe.interval = max 1 (byteAt p 1).toNat ∧ t.probe.timeout = max 2 (byteAt p 2).toNat ∧
        Replied side .setProbing r .done
          [BitVec.ofNat 8 t.probe.interval, BitVec.ofNat 8 t.probe.timeout] false s t ∧
        OnlyReplies s.management t.management ∧
        t = { s with management := t.management, probe := { s.probe with
          interval := t.probe.interval, timeout := t.probe.timeout } }) ∧
    (findRequest s side .setReporting = some r →
      ∃ t, exec (.setReporting side) s = .next t ∧
        let wrong := halfAt p 2 = 0 ∨ halfAt p 2 = 65535 ∨ 1 < (byteAt p 1).toNat ∨
          ∃ c : Fin 13, byteAt p (6 + c.val) = 0 ∨ 3 < (byteAt p (6 + c.val)).toNat
        (wrong → Refused side .setReporting r .value [] s t) ∧
        (¬ wrong →
          Replied side .setReporting r .done [] false s t ∧ OnlyReplies s.management t.management ∧
          t = { s with report := t.report, management := t.management } ∧
          t.report = { s.report with settings := t.report.settings, alert := t.report.alert } ∧
          t.report.settings =
            { side := if byteAt p 1 = 0 then .line else .drop, destination := some (halfAt p 2)
              reportInfo := (byteAt p 4).getLsb 0
              report := { minor := (byteAt p 4).getLsb 1, major := (byteAt p 4).getLsb 2
                          critical := (byteAt p 4).getLsb 3 }
              alertEnable := { minor := (byteAt p 5).getLsb 1, major := (byteAt p 5).getLsb 2
                               critical := (byteAt p 5).getLsb 3 }
              severity := t.report.settings.severity } ∧
          (∀ c : Fin 13, t.report.settings.severity[c] =
            if byteAt p (6 + c.val) = 1 then .minor else if byteAt p (6 + c.val) = 2 then .major else .critical) ∧
          t.report.alert = ((s.report.seen.minor && t.report.settings.alertEnable.minor) ||
            (s.report.seen.major && t.report.settings.alertEnable.major) ||
            (s.report.seen.critical && t.report.settings.alertEnable.critical))))

/-- REVERIFY refuses a slot above 127 with VALUE and a slot in IDLE or WINDOW with STATE; otherwise the last cause is
made absent and the slot enters SETTLING with restart count 0, which sends a withdraw and a filter reset request (R80,
R94, R95, R176). That the oldest waiting request of a side and code is the one taken is log entry 6. -/
def Obligations.ReverifyStartsTheCheckAfresh : Prop :=
  ∀ (s : State) (side : Side) (r : Request), s.resetHeld = false → findRequest s side .reverify = some r →
    ∃ t, exec (.reverify side) s = .next t ∧
      (128 ≤ (byteAt r.payload 1).toNat → Refused side .reverify r .value [] s t) ∧
      ∀ i : Slot, i.val = (byteAt r.payload 1).toNat →
        let sl := s.slots[i]
        (sl.context.state = .idle ∨ sl.context.state = .window → Refused side .reverify r .state [] s t) ∧
        (sl.context.state ≠ .idle → sl.context.state ≠ .window →
          Replied side .reverify r .done [] false s t ∧ OnlyReplies s.management t.management ∧
          t = { s with slots := t.slots, management := t.management } ∧
          (∀ j : Slot, j ≠ i → t.slots[j] = s.slots[j]) ∧
          t.slots[i] = { sl with
            context := { sl.context with
              state := .settling, waitReason := .noTag, lastCause := none, settleTimer := 0, soakCount := 0
              erroredCount := 0, restartCount := 0, strikes := 0, defectTimer := 0 }
            inFlight := { sl.inFlight with
              withdraws := sl.inFlight.withdraws + 1, filterResets := sl.inFlight.filterResets ++ [.settling] } })

/-- The queries refuse a slot above 127 with VALUE, QUERY TAG also a form above 03h, and otherwise answer the record
of the slot and change nothing else. The trail record has its fields at the places of R177, the tag records are those
of R178, and the route is the hop count with each hop's index, node and condition (R67, R177, R178, R179; that byte 0
of a HELD record is 5Ch is log entry 18). That the oldest waiting request of a side and code is the one taken is log
entry 6. That the bits of a trail record to which R177 gives no content are 0 is log entry 25. -/
def Obligations.QueriesAnswerTheStateOfASlot : Prop :=
  ∀ (s : State) (side : Side) (r : Request), s.resetHeld = false →
    let number := (byteAt r.payload 1).toNat
    let answers := fun (c : Command) (t : State) (data : List Byte) =>
      Replied side c r .done data false s t ∧ t = { s with management := t.management } ∧
      OnlyReplies s.management t.management
    let causeByte := fun c : Cause => match c with
      | .noTag => (0x01 : Byte)
      | .defect => 0x02
      | .farWindow => 0x03
      | .staleEpoch => 0x04
      | .misconnected => 0x05
      | .routeMismatch => 0x06
      | .errors => 0x07
      | .unstable => 0x08
      | .noDelay => 0x09
      | .delayShift => 0x0A
      | .restartDefect => 0x0B
      | .restartFarWindow => 0x0C
      | .restartProtect => 0x0D
    (findRequest s side .queryTrail = some r → ∃ t, exec (.queryTrail side) s = .next t ∧
      (128 ≤ number → Refused side .queryTrail r .value [] s t) ∧
      ∀ i : Slot, i.val = number → ∃ d, answers .queryTrail t d ∧
        let sl := s.slots[i]
        let c := sl.context
        let present := (halfAt d 6).getLsbD
        let wide := fun k n : Nat => (d.drop k).take n
        d.length = 47 ∧ (byteAt d 0).toNat = i.val ∧
        (byteAt d 1).toNat = (if sl.map.rxRole = .terminate then 1 else 0) + (match sl.map.txRole with
          | .carry => 0
          | .stamp => 2
          | .originate => 4) ∧
        byteAt d 2 = (match c.state with
          | .idle => 0x00
          | .window => 0x01
          | .settling => 0x02
          | .soaking => 0x03
          | .verified => 0x04
          | .failed => 0x05) ∧
        (present 0 = true ↔ c.state = .settling) ∧
        (c.state ≠ .settling → byteAt d 3 = 0x00) ∧
        (c.state = .settling → byteAt d 3 = match c.waitReason with
          | .noTag => 0x01
          | .defect => 0x02
          | .farWindow => 0x03
          | .staleEpoch => 0x04) ∧
        (present 1 = true ↔ c.lastCause ≠ none) ∧ byteAt d 4 = (c.lastCause.map causeByte).getD 0x00 ∧
        ((byteAt d 5).getLsbD 0 = sl.map.entry.isSome ∧
          (byteAt d 5).getLsbD 1 = decide (sl.tag.heldProtect = .protect) ∧ (byteAt d 5).getLsbD 2 = c.defectNow ∧
          (byteAt d 5).getLsbD 3 = c.lossMark ∧ (byteAt d 5).getLsbD 4 = c.findingPending ∧
          (byteAt d 5).getLsbD 6 = (sl.tag.held.map HeldTag.windowFlag).getD false ∧
          (byteAt d 5).getLsbD 7 = false) ∧
        (present 2 = sl.tag.held.isSome ∧ present 3 = (sl.tag.held.isSome && sl.map.entry.isSome)) ∧
        (sl.tag.held = none → wide 8 7 = List.replicate 7 0) ∧
        (∀ h, sl.tag.held = some h → halfAt d 8 = h.identity.node ∧ byteAt d 10 = h.identity.port ∧
          halfAt d 11 = h.identity.trail ∧ halfAt d 13 = h.epoch) ∧
        (∀ h e, sl.tag.held = some h → sl.map.entry = some e →
          byteAt d 15 = match matchResult e h.identity with
            | .noMatch => 0x00
            | .matched => 0x01
            | .matchedA => 0x02
            | .matchedB => 0x03) ∧
        (sl.tag.held = none ∨ sl.map.entry = none → byteAt d 15 = 0) ∧
        (present 4 = sl.tag.lastFault.isSome ∧ byteAt d 16 = match sl.tag.lastFault with
          | none => 0x00
          | some .slip => 0x01
          | some .incomplete => 0x02
          | some .checkError => 0x03
          | some .foreign => 0x04
          | some .malformed => 0x05) ∧
        (halfAt d 17 = BitVec.ofNat 16 c.settleTimer ∧ halfAt d 19 = BitVec.ofNat 16 c.soakCount ∧
          halfAt d 21 = BitVec.ofNat 16 c.erroredCount ∧ byteAt d 23 = BitVec.ofNat 8 c.restartCount ∧
          byteAt d 24 = BitVec.ofNat 8 c.strikes ∧ halfAt d 25 = BitVec.ofNat 16 c.defectTimer ∧
          halfAt d 27 = BitVec.ofNat 16 sl.probe.sampleCount) ∧
        (present 5 = sl.probe.average.isSome ∧ wide 29 3 = beBytes 3 (sl.probe.average.getD 0) ∧
          wide 32 3 = beBytes 3 ((sl.probe.average.map oneWayDelay).getD 0)) ∧
        (present 6 = sl.map.workingBaseline.isSome ∧ wide 35 3 = beBytes 3 (sl.map.workingBaseline.getD 0)) ∧
        (present 7 = sl.map.protectBaseline.isSome ∧ wide 38 3 = beBytes 3 (sl.map.protectBaseline.getD 0)) ∧
        (slotShift sl.map sl.probe sl.tag.heldProtect = none →
          present 8 = false ∧ (byteAt d 5).getLsbD 5 = false ∧ halfAt d 41 = 0) ∧
        (∀ v saturated, slotShift sl.map sl.probe sl.tag.heldProtect = some (v, saturated) →
          present 8 = true ∧ (byteAt d 5).getLsbD 5 = saturated ∧ halfAt d 41 = BitVec.ofInt 16 v) ∧
        ((∀ k : Fin 8, ∀ e, s.probe.table[k] = some e → e.slot ≠ i) →
          present 9 = false ∧ byteAt d 43 = 0 ∧ byteAt d 44 = 0) ∧
        (OneEntryPerSlot s → ∀ (k : Fin 8) (e : ProbeEntry), s.probe.table[k] = some e → e.slot = i →
          present 9 = true ∧ byteAt d 43 = e.number ∧ byteAt d 44 = if e.launch = none then 0 else 1) ∧
        (∀ k, 10 ≤ k → present k = false) ∧ halfAt d 45 = sl.map.expectedEpoch) ∧
    (findRequest s side .queryTag = some r → ∃ t, exec (.queryTag side) s = .next t ∧
      let form := byteAt r.payload 2
      (128 ≤ number ∨ 3 < form.toNat → Refused side .queryTag r .value [] s t) ∧
      ∀ i : Slot, i.val = number →
        let sl := s.slots[i]
        let m := sl.map
        (form = 0 → sl.tag.held = none → answers .queryTag t [0x00, 0x00]) ∧
        (form = 1 → sl.tag.lastValid = none → answers .queryTag t [0x01, 0x00]) ∧
        (form = 2 → sl.tx.lastEmitted = none → answers .queryTag t [0x02, 0x00]) ∧
        (∀ h, form = 0 → sl.tag.held = some h → h.route.length ≤ 6 →
          ∃ d, answers .queryTag t ([0x00, 0x01] ++ d) ∧ d.length = 32 ∧ byteAt d 0 = 0x5C ∧
            (halfAt d 1 = h.identity.node ∧ byteAt d 3 = h.identity.port ∧ halfAt d 4 = h.identity.trail ∧
              halfAt d 6 = h.epoch) ∧
            ((byteAt d 16).toNat = h.route.length ∧ ∀ k < h.route.length, h.route[k]? = some (halfAt d (18 + 2 * k))) ∧
            byteAt d 8 = (if h.windowFlag then 1 else 0) ∧
            byteAt d 17 = (if h.overflow then 1 else 0) ∧ (d.drop 9).take 7 = List.replicate 7 0 ∧
            d.drop (18 + 2 * h.route.length) = List.replicate (14 - 2 * h.route.length) 0) ∧
        (∀ v, form = 1 → sl.tag.lastValid = some v →
          answers .queryTag t ([0x01, 0x01] ++ v.bytes ++ beBytes 4 v.stamp.toNat)) ∧
        (∀ e, form = 2 → sl.tx.lastEmitted = some e →
          answers .queryTag t (0x02 :: 0x01 :: (match e.source with
            | .originated => 0x00
            | .stamped => 0x01
            | .carried => 0x02
            | .idle => 0x03) :: e.bytes)) ∧
        (form = 3 → answers .queryTag t [0x03, 0x01, if m.txRole = .originate then 1 else 0, m.originPort,
          highByte m.originTrail, lowByte m.originTrail, highByte m.originEpoch, lowByte m.originEpoch])) ∧
    (findRequest s side .queryRoute = some r → ∃ t, exec (.queryRoute side) s = .next t ∧
      (128 ≤ number → Refused side .queryRoute r .value [] s t) ∧
      ∀ i : Slot, i.val = number →
        answers .queryRoute t (BitVec.ofNat 8 s.slots[i].map.route.length ::
          s.slots[i].map.route.flatMap fun h =>
            [BitVec.ofNat 8 h.index.val, highByte h.node, lowByte h.node, match h.condition with
              | .always => 0x00
              | .workingOnly => 0x01
              | .protectOnly => 0x02]))

/-- The read of one block by the oldest READ STATUS that still waits for it: the block's values as they stand enter
their places of the 26 bytes, other bytes stay, and the reply is built when the last block has been read. Nothing else
changes (R159, R166). That the oldest waiting request of a side and code is the one taken is log entry 6. -/
def Obligations.StatusIsReadBlockByBlock : Prop :=
  ∀ (s : State) (side : Side) (block : Block) (before after : List Request) (r : Request), s.resetHeld = false →
    s.management.requests = before ++ r :: after → r.side = side → r.command = .readStatus → block ∈ r.todo →
    r.todo.Nodup → (∀ q ∈ before, q.side = side → q.command = .readStatus → block ∉ q.todo) →
    (r.data = [] ∨ r.data.length = 26) →
    let old := if r.data = [] then List.replicate 25 0 ++ [0x01] else r.data
    let left := r.todo.filter fun b => b != block
    ∃ t d, exec (.readStatus side block) s = .next t ∧ t = { s with management := t.management } ∧
      OnlyReplies s.management t.management ∧
      (left ≠ [] → t.management.requests = before ++ { r with todo := left, data := d } :: after ∧
        t.management.reply = s.management.reply) ∧
      (left = [] → t.management.requests = before ++ after ∧
        (r.live = true → t.management.reply = s.management.reply.set side
          (.holding (replyFrame s.management.identity r.source r.sequence r.payload .done d) false)) ∧
        (r.live = false → t.management.reply = s.management.reply)) ∧
      d.length = 26 ∧
      let bits := fun (k n : Nat) => (byteAt d k).toNat = n
      let half := fun (k n : Nat) => halfAt d k = BitVec.ofNat 16 n
      let kept := fun ks : List Nat => ∀ k, k ∉ ks → byteAt d k = byteAt old k
      let flags := fun mask value : Byte => byteAt d 4 = byteAt old 4 ||| (mask &&& value)
      match block with
      | .managementUnit => kept [0, 1, 4, 5, 6, 7, 8, 9, 10] ∧ halfAt d 0 = s.management.identity.getD 0 ∧
          flags 0x01 (if s.management.identity = none then 0 else 255) ∧ half 5 s.management.checkErrors ∧
          half 7 s.management.commandDiscards ∧ half 9 s.management.forwardDiscards
      | .lineReceiver => kept [2] ∧ bits 2 (match s.receiver.line.align with
          | .hunt => 0
          | .confirm _ _ => 1
          | .locked => 2)
      | .dropReceiver => kept [3] ∧ bits 3 (match s.receiver.drop.align with
          | .hunt => 0
          | .confirm _ _ => 1
          | .locked => 2)
      | .dropTransmitter => kept [4] ∧ flags 0x02 (if s.output.drop.timing = .localTimed then 255 else 0)
      | .lineTransmitter => kept [4] ∧ flags 0x04 (if s.output.line.timing = .localTimed then 255 else 0)
      | .reportUnit => kept [4, 17] ∧
          byteAt d 4 = (byteAt old 4 ||| (if s.report.alert then 0x08 else 0) |||
            (if s.report.seen.minor then 0x10 else 0) ||| (if s.report.seen.major then 0x20 else 0) |||
            (if s.report.seen.critical then 0x40 else 0)) ∧
          byteAt d 17 = BitVec.ofNat 8 s.report.queue.length
      | .probeEngine => kept [11, 12, 13, 14, 15, 16, 20] ∧ half 11 s.probe.lost ∧ half 13 s.probe.late ∧
          half 15 s.probe.rejected ∧ bits 20 s.probe.rotationIndex.val
      | .routePool => kept [18, 19] ∧ half 18 s.freeHops.length
      | .timebase => kept [21, 22, 23, 24] ∧
          byteAt d 21 ++ byteAt d 22 ++ byteAt d 23 ++ byteAt d 24 = s.timebase.periodClock

/-- The clear at one block for the oldest CLEAR DETECTED that waits for it: the items that the selection bytes name
there are cleared and no others, ALERT follows the flags, and the reply is built with the last request; a command that
selects nothing is answered alone, which is the model's choice (log entry 8; R144, R150, R180). That the oldest
waiting request of a side and code is the one taken is log entry 6. -/
def Obligations.DetectedItemsAreCleared : Prop :=
  ∀ (s : State) (side : Side) (block : Block) (before after : List Request) (r : Request), s.resetHeld = false →
    s.management.requests = before ++ r :: after → r.side = side → r.command = .clearDetected →
    (block ∈ r.todo ∨ r.todo = []) → r.todo.Nodup →
    (∀ q ∈ before, q.side = side → q.command = .clearDetected → block ∉ q.todo ∧ q.todo ≠ []) →
    let one := byteAt r.payload 1
    let two := byteAt r.payload 2
    let left := r.todo.filter fun b => b != block
    let here := fun b : Block => decide (block = b ∧ b ∈ r.todo)
    let cleared := fun (b : Block) (selected : Bool) (n : Nat) => if here b && selected then 0 else n
    ∃ t, exec (.clearDetected side block) s = .next t ∧
      t.report.seen =
        { minor := s.report.seen.minor && !(here .reportUnit && one.getLsb 0)
          major := s.report.seen.major && !(here .reportUnit && one.getLsb 1)
          critical := s.report.seen.critical && !(here .reportUnit && one.getLsb 2) } ∧
      t.report.alert = (if here .reportUnit then
        (t.report.seen.minor && s.report.settings.alertEnable.minor) ||
        (t.report.seen.major && s.report.settings.alertEnable.major) ||
        (t.report.seen.critical && s.report.settings.alertEnable.critical) else s.report.alert) ∧
      t = { s with
        management := { s.management with
          requests := t.management.requests, reply := t.management.reply
          checkErrors := cleared .managementUnit (one.getLsb 3) s.management.checkErrors
          commandDiscards := cleared .managementUnit (one.getLsb 4) s.management.commandDiscards
          forwardDiscards := cleared .managementUnit (one.getLsb 5) s.management.forwardDiscards }
        probe := { s.probe with
          lost := cleared .probeEngine (one.getLsb 6) s.probe.lost
          late := cleared .probeEngine (one.getLsb 7) s.probe.late
          rejected := cleared .probeEngine (two.getLsb 0) s.probe.rejected }
        report := { s.report with seen := t.report.seen, alert := t.report.alert } } ∧
      (left ≠ [] → t.management.requests = before ++ { r with todo := left } :: after ∧
        t.management.reply = s.management.reply) ∧
      (left = [] → t.management.requests = before ++ after ∧
        (r.live = true → t.management.reply = s.management.reply.set side
          (.holding (replyFrame s.management.identity r.source r.sequence r.payload .done []) false)) ∧
        (r.live = false → t.management.reply = s.management.reply))

/-! ## Matching and delay arithmetic -/

/-- The match result of a held identity in both match modes, and the expected route of a slot with the route match of both
route checks (R45, R46, R68, R69). -/
def Obligations.MatchingComparesIdentitiesAndRoutes : Prop :=
  ∀ (e : MapEntry) (h : HeldTag) (route : List Hop) (side : Protect),
    (∀ x m, e.mode = .masked x m →
      let agrees := (∀ k < 16, m.node.getLsbD k = true → h.identity.node.getLsbD k = x.node.getLsbD k) ∧
        (∀ k < 8, m.port.getLsbD k = true → h.identity.port.getLsbD k = x.port.getLsbD k) ∧
        ∀ k < 16, m.trail.getLsbD k = true → h.identity.trail.getLsbD k = x.trail.getLsbD k
      (agrees → matchResult e h.identity = .matched) ∧ (¬ agrees → matchResult e h.identity = .noMatch)) ∧
    (∀ a b, e.mode = .listed a b →
      (h.identity = a → matchResult e h.identity = .matchedA) ∧
      (h.identity ≠ a → b = some h.identity → matchResult e h.identity = .matchedB) ∧
      (h.identity ≠ a → b ≠ some h.identity → matchResult e h.identity = .noMatch)) ∧
    expectedRoute [] side = [] ∧
    (∀ hop : Hop, expectedRoute (hop :: route) side =
      if hop.condition = .always ∨ (hop.condition = .workingOnly ∧ side = .working) ∨
        (hop.condition = .protectOnly ∧ side = .protect) then hop.node :: expectedRoute route side
      else expectedRoute route side) ∧
    (e.routeCheck = .none → routeMatches e route h side = true) ∧
    (e.routeCheck = .exact → (routeMatches e route h side = true ↔
      h.overflow = false ∧ h.route.length = (expectedRoute route side).length ∧
      ∀ i < h.route.length, h.route[i]? = (expectedRoute route side)[i]?))

/-- The filter step is the distance divided by 2^k and rounded to the nearest integer, exact halves to the even one; it is
odd in the distance, is 0 up to half of 2^k, and never passes the target. The one-way delay is the average times 125 divided
by 2,048, rounded in the same way (R130, R131, R132, R136). -/
def Obligations.DelaysRoundHalvesToEven : Prop :=
  (∀ a : Nat,
    let w := (oneWayDelay a : Int)
    2 * (w * 2048 - a * 125).natAbs ≤ 2048 ∧ (2 * (w * 2048 - a * 125).natAbs = 2048 → w % 2 = 0)) ∧
  ∀ (d : Int) (k : Nat),
    let q := roundHalfEven d (2 ^ k)
    2 * (q * 2 ^ k - d).natAbs ≤ 2 ^ k ∧ (2 * (q * 2 ^ k - d).natAbs = 2 ^ k → q % 2 = 0) ∧
    roundHalfEven (-d) (2 ^ k) = -q ∧ (1 ≤ k → 2 * d.natAbs ≤ 2 ^ k → q = 0) ∧
    ∀ average sample : Nat, d = 16 * (sample : Int) - average →
      let next := averageAfter (some average) sample k
      (next : Int) = average + q ∧ min average (16 * sample) ≤ next ∧ next ≤ max average (16 * sample)

/-! ## Invariants -/

/-- The state after reset satisfies every invariant below. -/
def Obligations.InvariantsHoldAtReset : Prop :=
  AlertFollows State.reset ∧ OneRecordPerSlot State.reset ∧ PendingIsQueued State.reset ∧
  HopsConserved State.reset ∧ ChecksStandOnEntries State.reset ∧ DelaysInRange State.reset ∧
  OneEntryPerSlot State.reset ∧ ReceiversInRange State.reset ∧ BuffersFollowArbiters State.reset

/-- A slot's roles, origin port, origin trail, map entry and route list change only while the slot is in WINDOW, or by a
power-on reset (R43). -/
def Obligations.ExpectationsChangeOnlyInWindow : Prop :=
  ∀ (c : Instr) (s t : State) (i : Slot), c ≠ .powerOn → c ≠ .resetnAsserted → exec c s = .next t →
    s.slots[i].context.state ≠ .window →
    t.slots[i].map = { s.slots[i].map with
      originEpoch := t.slots[i].map.originEpoch, expectedEpoch := t.slots[i].map.expectedEpoch
      workingBaseline := t.slots[i].map.workingBaseline, protectBaseline := t.slots[i].map.protectBaseline }

/-- Every step keeps the report unit in order: ALERT follows the detected flags and the alert enables, the queue holds at
most one record per slot, and a slot whose finding is pending has one (R97, R144, R145). -/
def Obligations.EveryStepKeepsTheReportUnitInOrder : Prop :=
  ∀ s t : State, AlertFollows s → OneRecordPerSlot s → PendingIsQueued s → step s = .next t →
    AlertFollows t ∧ OneRecordPerSlot t ∧ PendingIsQueued t

/-- Every step keeps the trail map and the route pool in order: each hop entry is on the free list or on one slot's list, no
list is longer than six hops, a slot is checked only with role TERMINATE and a LOADED entry, and an entry that measures
delay stands on an ORIGINATE slot (R42, R59, R60, R73). -/
def Obligations.EveryStepKeepsTheTrailMapInOrder : Prop :=
  ∀ s t : State, HopsConserved s → ChecksStandOnEntries s → step s = .next t → HopsConserved t ∧ ChecksStandOnEntries t

/-- Every step keeps the probe engine in order: averages and baselines lie within 0..16,777,200, an average is present
exactly when samples have been counted, and the probe table holds at most one entry per slot (R104, R128, R132). -/
def Obligations.EveryStepKeepsTheProbeEngineInOrder : Prop :=
  ∀ s t : State, DelaysInRange s → OneEntryPerSlot s → step s = .next t → DelaysInRange t ∧ OneEntryPerSlot t

/-- Every step keeps the receivers and the tag receiver within their ranges: miss counts at most 2, a receiver in LOCKED with
its phase and its next frame start, run lengths at most 2 and tag-loss counts at most 8 (R8, R26, R27). -/
def Obligations.EveryStepKeepsTheReceiversInRange : Prop :=
  ∀ s t : State, ReceiversInRange s → step s = .next t → ReceiversInRange t

/-- Every step keeps the management buffers with the arbiters: a buffer is SENDING exactly when its output's arbiter is
sending a frame from it, and a reply buffer is RESERVED exactly when one request waits whose outcome will enter it (R157,
R158, R160, R163, R182). -/
def Obligations.EveryStepKeepsTheBuffersWithTheArbiters : Prop :=
  ∀ s t : State, BuffersFollowArbiters s → step s = .next t → BuffersFollowArbiters t
end

