-- ==== Sys2Proof/Laws/State.lean ====
section
/-! SUPPORT. The small lemmas of State, Sides and their updates: one per field per update. -/

namespace Sys2Proof.Machine

/-! ## Sides -/

@[simp] theorem Sides.get_line {α : Type} (p : Sides α) : p.get .line = p.line := rfl
@[simp] theorem Sides.get_drop {α : Type} (p : Sides α) : p.get .drop = p.drop := rfl
@[simp] theorem Sides.set_line {α : Type} (p : Sides α) (a : α) : p.set .line a = { p with line := a } := rfl
@[simp] theorem Sides.set_drop {α : Type} (p : Sides α) (a : α) : p.set .drop a = { p with drop := a } := rfl

@[simp] theorem Sides.get_set_same {α : Type} (p : Sides α) (side : Side) (a : α) : (p.set side a).get side = a := by
  cases side <;> rfl

theorem Sides.get_set_other {α : Type} (p : Sides α) {x y : Side} (h : y ≠ x) (a : α) :
    (p.set x a).get y = p.get y := by
  cases x <;> cases y <;> first | rfl | exact absurd rfl h

/-! ## Vectors -/

theorem vectorOf_get {α : Type} {n : Nat} (f : Fin n → α) (i : Fin n) : (vectorOf f)[i] = f i := by
  simp [vectorOf]

@[simp] theorem vectorOf_get_val {α : Type} {n : Nat} (f : Fin n → α) (i : Nat) (h : i < n) :
    (vectorOf f)[i] = f ⟨i, h⟩ := by
  simp [vectorOf]

/-! ## One slot replaced -/

@[simp] theorem State.modSlot_resetHeld (s : State) (i : Slot) (f : SlotState → SlotState) :
    (s.modSlot i f).resetHeld = s.resetHeld := rfl
@[simp] theorem State.modSlot_timebase (s : State) (i : Slot) (f : SlotState → SlotState) :
    (s.modSlot i f).timebase = s.timebase := rfl
@[simp] theorem State.modSlot_receiver (s : State) (i : Slot) (f : SlotState → SlotState) :
    (s.modSlot i f).receiver = s.receiver := rfl
@[simp] theorem State.modSlot_lineCycleStart (s : State) (i : Slot) (f : SlotState → SlotState) :
    (s.modSlot i f).lineCycleStart = s.lineCycleStart := rfl
@[simp] theorem State.modSlot_output (s : State) (i : Slot) (f : SlotState → SlotState) :
    (s.modSlot i f).output = s.output := rfl
@[simp] theorem State.modSlot_lineTx (s : State) (i : Slot) (f : SlotState → SlotState) :
    (s.modSlot i f).lineTx = s.lineTx := rfl
@[simp] theorem State.modSlot_profiles (s : State) (i : Slot) (f : SlotState → SlotState) :
    (s.modSlot i f).profiles = s.profiles := rfl
@[simp] theorem State.modSlot_freeHops (s : State) (i : Slot) (f : SlotState → SlotState) :
    (s.modSlot i f).freeHops = s.freeHops := rfl
@[simp] theorem State.modSlot_probe (s : State) (i : Slot) (f : SlotState → SlotState) :
    (s.modSlot i f).probe = s.probe := rfl
@[simp] theorem State.modSlot_report (s : State) (i : Slot) (f : SlotState → SlotState) :
    (s.modSlot i f).report = s.report := rfl
@[simp] theorem State.modSlot_management (s : State) (i : Slot) (f : SlotState → SlotState) :
    (s.modSlot i f).management = s.management := rfl
@[simp] theorem State.modSlot_restartsDue (s : State) (i : Slot) (f : SlotState → SlotState) :
    (s.modSlot i f).restartsDue = s.restartsDue := rfl
@[simp] theorem State.modSlot_pending (s : State) (i : Slot) (f : SlotState → SlotState) :
    (s.modSlot i f).pending = s.pending := rfl

/-- What a slot holds after one slot has been replaced. -/
theorem State.modSlot_slot (s : State) (i j : Slot) (f : SlotState → SlotState) :
    (s.modSlot i f).slots[j] = if j = i then f s.slots[j] else s.slots[j] := by
  rcases eq_or_ne j i with rfl | h
  · simp [State.modSlot]
  · have hv : i.val ≠ j.val := fun e => h (Fin.ext e.symm)
    simp [State.modSlot, h, hv]

theorem State.modSlot_same (s : State) (i : Slot) (f : SlotState → SlotState) :
    (s.modSlot i f).slots[i] = f s.slots[i] := by
  rw [State.modSlot_slot, if_pos rfl]

theorem State.modSlot_other (s : State) {i j : Slot} (h : j ≠ i) (f : SlotState → SlotState) :
    (s.modSlot i f).slots[j] = s.slots[j] := by
  rw [State.modSlot_slot, if_neg h]

/-- The same with the slot number as a plain number, the form that simp brings an index to. -/
@[simp] theorem State.modSlot_same_val (s : State) (i : Slot) (f : SlotState → SlotState) :
    (s.modSlot i f).slots[i.val] = f s.slots[i.val] := State.modSlot_same s i f

/-! ## Every slot replaced -/

@[simp] theorem State.mapSlots_resetHeld (s : State) (f : Slot → SlotState → SlotState) :
    (s.mapSlots f).resetHeld = s.resetHeld := by rw [State.mapSlots]
@[simp] theorem State.mapSlots_timebase (s : State) (f : Slot → SlotState → SlotState) :
    (s.mapSlots f).timebase = s.timebase := by rw [State.mapSlots]
@[simp] theorem State.mapSlots_receiver (s : State) (f : Slot → SlotState → SlotState) :
    (s.mapSlots f).receiver = s.receiver := by rw [State.mapSlots]
@[simp] theorem State.mapSlots_lineCycleStart (s : State) (f : Slot → SlotState → SlotState) :
    (s.mapSlots f).lineCycleStart = s.lineCycleStart := by rw [State.mapSlots]
@[simp] theorem State.mapSlots_output (s : State) (f : Slot → SlotState → SlotState) :
    (s.mapSlots f).output = s.output := by rw [State.mapSlots]
@[simp] theorem State.mapSlots_lineTx (s : State) (f : Slot → SlotState → SlotState) :
    (s.mapSlots f).lineTx = s.lineTx := by rw [State.mapSlots]
@[simp] theorem State.mapSlots_profiles (s : State) (f : Slot → SlotState → SlotState) :
    (s.mapSlots f).profiles = s.profiles := by rw [State.mapSlots]
@[simp] theorem State.mapSlots_freeHops (s : State) (f : Slot → SlotState → SlotState) :
    (s.mapSlots f).freeHops = s.freeHops := by rw [State.mapSlots]
@[simp] theorem State.mapSlots_probe (s : State) (f : Slot → SlotState → SlotState) :
    (s.mapSlots f).probe = s.probe := by rw [State.mapSlots]
@[simp] theorem State.mapSlots_report (s : State) (f : Slot → SlotState → SlotState) :
    (s.mapSlots f).report = s.report := by rw [State.mapSlots]
@[simp] theorem State.mapSlots_management (s : State) (f : Slot → SlotState → SlotState) :
    (s.mapSlots f).management = s.management := by rw [State.mapSlots]
@[simp] theorem State.mapSlots_restartsDue (s : State) (f : Slot → SlotState → SlotState) :
    (s.mapSlots f).restartsDue = s.restartsDue := by rw [State.mapSlots]
@[simp] theorem State.mapSlots_pending (s : State) (f : Slot → SlotState → SlotState) :
    (s.mapSlots f).pending = s.pending := by rw [State.mapSlots]

theorem State.mapSlots_slot (s : State) (f : Slot → SlotState → SlotState) (i : Slot) :
    (s.mapSlots f).slots[i] = f i s.slots[i] := by
  simp [State.mapSlots]

@[simp] theorem State.mapSlots_slot_val (s : State) (f : Slot → SlotState → SlotState) (i : Slot) :
    (s.mapSlots f).slots[i.val] = f i s.slots[i.val] := State.mapSlots_slot s f i

/-! ## Steps of the part -/

/-- A step answers with the state it makes, or with the state as it was while RESETN holds the part. -/
theorem act_eq (s : State) (f : State → State) : act s f = .next (if s.resetHeld then s else f s) := rfl

@[simp] theorem act_running {s : State} (h : s.resetHeld = false) (f : State → State) : act s f = .next (f s) := by
  simp [act, h]

@[simp] theorem act_held {s : State} (h : s.resetHeld = true) (f : State → State) : act s f = .next s := by
  simp [act, h]

/-- What a step can answer: nothing happened, or the effect did. -/
theorem act_cases {s t : State} {f : State → State} (h : act s f = .next t) :
    (s.resetHeld = true ∧ t = s) ∨ (s.resetHeld = false ∧ t = f s) := by
  cases hr : s.resetHeld <;> simp [act, hr] at h <;> simp [h]

/-! ## Counts -/

theorem satInc_le {bound n : Nat} (h : n ≤ bound) : satInc bound n ≤ bound := by
  unfold satInc; split <;> omega

theorem satInc_of_lt {bound n : Nat} (h : n < bound) : satInc bound n = n + 1 := by simp [satInc, h]

theorem satInc_at {bound n : Nat} (h : bound ≤ n) : satInc bound n = n := by
  simp [satInc, Nat.not_lt.mpr h]

end Sys2Proof.Machine
end

