-- ==== Sys2Proof/Laws/Checks.lean ====
section
/-! SUPPORT. What the events of a verification context leave alone: of a slot, everything but its context and the events it
sends, and at soak end or an accepted sample the baseline it writes. -/

namespace Sys2Proof.Machine

/-- Replacing one slot changes that slot alone. -/
theorem slotBecomes_modSlot (s : State) (i : Slot) (f : SlotState → SlotState) :
    SlotBecomes i s (s.modSlot i f) (f s.slots[i]) :=
  ⟨⟨rfl, fun _ h => State.modSlot_other s h f⟩, State.modSlot_same s i f⟩

theorem OnlyContext.refl (a : SlotState) : OnlyContext a a := rfl

theorem OnlyContext.trans {a b c : SlotState} (h : OnlyContext a b) (g : OnlyContext b c) : OnlyContext a c := by
  unfold OnlyContext at *; rw [g, h]

theorem OnlyContext.map {a b : SlotState} (h : OnlyContext a b) : b.map = a.map := by rw [h]
theorem OnlyContext.probe {a b : SlotState} (h : OnlyContext a b) : b.probe = a.probe := by rw [h]
theorem OnlyContext.tag {a b : SlotState} (h : OnlyContext a b) : b.tag = a.tag := by rw [h]
theorem OnlyContext.tx {a b : SlotState} (h : OnlyContext a b) : b.tx = a.tx := by rw [h]
theorem OnlyContext.parityMemory {a b : SlotState} (h : OnlyContext a b) : b.parityMemory = a.parityMemory := by rw [h]

theorem enterSettling_only (sl : SlotState) : OnlyContext sl (enterSettling sl) := rfl

theorem enterSettlingAfresh_only (sl : SlotState) : OnlyContext sl (enterSettlingAfresh sl) := rfl

theorem enterSoaking_only (sl : SlotState) : OnlyContext sl (enterSoaking sl) := rfl

theorem enterFailed_only (inp : CheckInputs) (i : Slot) (cause : Cause) (sl : SlotState) :
    OnlyContext sl (enterFailed inp i cause sl) := by
  unfold enterFailed; dsimp only; split <;> rfl

theorem enterVerified_only (inp : CheckInputs) (i : Slot) (b : Bool) (sl : SlotState) :
    OnlyContext sl (enterVerified inp i b sl) := rfl

theorem checkRestart_only (inp : CheckInputs) (i : Slot) (cause : Cause) (sl : SlotState) :
    OnlyContext sl (checkRestart inp i cause sl) := by
  unfold checkRestart; dsimp only; split
  · exact (show OnlyContext sl { sl with context := _ } from rfl).trans (enterFailed_only ..)
  · rfl

theorem reportInSettling_only (inp : CheckInputs) (i : Slot) (d : Bool) (r : CycleReport) (sl : SlotState) :
    OnlyContext sl (reportInSettling inp i d r sl) := by
  unfold reportInSettling
  split
  · rfl
  · split
    · rfl
    · split
      · exact enterFailed_only ..
      · split
        · rfl
        · split
          · rfl
          · split
            · exact enterFailed_only ..
            · rfl

theorem reportGoesOnSoaking_only (inp : CheckInputs) (i : Slot) (r : CycleReport) (sl : SlotState) :
    OnlyContext sl (reportGoesOnSoaking inp i r sl) := by
  unfold reportGoesOnSoaking erroredInSoaking
  split
  · exact checkRestart_only ..
  · split
    · dsimp only; split
      · exact (show OnlyContext sl { sl with context := _ } from rfl).trans (enterFailed_only ..)
      · rfl
    · rfl

theorem reportInSoaking_only (inp : CheckInputs) (i : Slot) (d : Bool) (r : CycleReport) (sl : SlotState) :
    OnlyContext sl (reportInSoaking inp i d r sl) := by
  unfold reportInSoaking
  split
  · split
    · exact checkRestart_only ..
    · exact reportGoesOnSoaking_only ..
  · split
    · exact enterFailed_only ..
    · split
      · exact checkRestart_only ..
      · split
        · exact checkRestart_only ..
        · split
          · exact enterFailed_only ..
          · split
            · exact enterFailed_only ..
            · exact reportGoesOnSoaking_only ..

theorem reportStaysVerified_only (w d : Bool) (r : CycleReport) (sl : SlotState) :
    OnlyContext sl (reportStaysVerified w d r sl) := by
  unfold reportStaysVerified; dsimp only; split <;> rfl

theorem reportInVerified_only (inp : CheckInputs) (i : Slot) (w d : Bool) (r : CycleReport) (sl : SlotState) :
    OnlyContext sl (reportInVerified inp i w d r sl) := by
  unfold reportInVerified
  split
  · exact reportStaysVerified_only ..
  · split
    · exact enterFailed_only ..
    · split
      · exact checkRestart_only ..
      · split
        · exact enterFailed_only ..
        · split
          · exact enterFailed_only ..
          · exact reportStaysVerified_only ..

/-- A cycle report changes of its slot only the context and the events it sends. -/
theorem takeReport_only (inp : CheckInputs) (i : Slot) (r : CycleReport) (sl : SlotState) :
    OnlyContext sl (takeReport inp i r sl) := by
  unfold takeReport; dsimp only
  have judged : OnlyContext sl { sl with context := afterDefectJudgement inp sl.context r } := rfl
  split
  · exact judged.trans (reportInSettling_only ..)
  · exact judged.trans (reportInSoaking_only ..)
  · exact judged.trans (reportInVerified_only ..)
  all_goals exact judged

/-- Stream loss changes of its slot only the context and the events it sends. -/
theorem takeStreamLoss_only (inp : CheckInputs) (i : Slot) (sl : SlotState) :
    OnlyContext sl (takeStreamLoss inp i sl) := by
  unfold takeStreamLoss; dsimp only
  have marked : OnlyContext sl { sl with context := { sl.context with lossMark := true, defectNow := true } } := rfl
  split
  · exact marked.trans rfl
  · exact marked.trans (checkRestart_only ..)
  · exact marked.trans rfl
  all_goals exact marked

/-- A write of one baseline leaves the rest of the slot's trail map. -/
theorem writeBaseline_rest (m : SlotMap) (side : Protect) (v : Nat) :
    writeBaseline m side v = { m with
      workingBaseline := (writeBaseline m side v).workingBaseline
      protectBaseline := (writeBaseline m side v).protectBaseline } := by
  cases side <;> rfl

@[simp] theorem writeBaseline_entry (m : SlotMap) (side : Protect) (v : Nat) :
    (writeBaseline m side v).entry = m.entry := by cases side <;> rfl
@[simp] theorem writeBaseline_route (m : SlotMap) (side : Protect) (v : Nat) :
    (writeBaseline m side v).route = m.route := by cases side <;> rfl
@[simp] theorem writeBaseline_rxRole (m : SlotMap) (side : Protect) (v : Nat) :
    (writeBaseline m side v).rxRole = m.rxRole := by cases side <;> rfl
@[simp] theorem writeBaseline_txRole (m : SlotMap) (side : Protect) (v : Nat) :
    (writeBaseline m side v).txRole = m.txRole := by cases side <;> rfl
@[simp] theorem writeBaseline_originPort (m : SlotMap) (side : Protect) (v : Nat) :
    (writeBaseline m side v).originPort = m.originPort := by cases side <;> rfl
@[simp] theorem writeBaseline_originTrail (m : SlotMap) (side : Protect) (v : Nat) :
    (writeBaseline m side v).originTrail = m.originTrail := by cases side <;> rfl

end Sys2Proof.Machine
end

