-- ==== Sys2Proof/Laws/Frames.lean ====
section
/-! SUPPORT. The search of HUNT, the phases, and what the arbiters leave alone, said once. -/

namespace Sys2Proof.Machine

/-! ## The search of HUNT -/

theorem frameStartMatches_iff (bs : List Byte) : frameStartMatches bs = true ↔ FrameStartAt bs 0 := by
  rw [FrameStartAt, frameStartMatches]
  match bs with
  | [] => simp [Config.alignmentWord]
  | [a] => simp [Config.alignmentWord]
  | [a, b] => simp [Config.alignmentWord]
  | [a, b, c] => simp [Config.alignmentWord]
  | [a, b, c, d] => simp [Config.alignmentWord]
  | a :: b :: c :: d :: e :: l => simp [Config.alignmentWord, byteAt, and_assoc]

theorem frameStartAt_succ (b : Byte) (bs : List Byte) (k : Nat) :
    FrameStartAt (b :: bs) (k + 1) ↔ FrameStartAt bs k := by
  simp only [FrameStartAt, List.getElem?_cons_succ, show k + 1 + 1 = (k + 1) + 1 from rfl,
    show k + 1 + 2 = (k + 2) + 1 by omega, show k + 1 + 3 = (k + 3) + 1 by omega,
    show k + 1 + 4 = (k + 4) + 1 by omega]

theorem frameStartAt_short (bs : List Byte) (h : bs.length < 5) (k : Nat) : ¬ FrameStartAt bs k := by
  rintro ⟨_, _, _, _, b, hb, _⟩
  rw [List.getElem?_eq_some_iff] at hb
  obtain ⟨hb, _⟩ := hb; omega

theorem huntSearch_found (bs : List Byte) (pos k : Nat) (b : Byte) (h : FrameStartAt bs k)
    (hm : ∀ k' < k, ¬ FrameStartAt bs k') (hb : bs[k + 4]? = some b) :
    (huntSearch bs pos).1 = some (pos + k, BitVec.ofNat 5 b.toNat) := by
  induction bs generalizing pos k with
  | nil => exact absurd h (frameStartAt_short _ (by simp) _)
  | cons a l ih =>
    rw [huntSearch]
    cases k with
    | zero =>
      rw [if_pos ((frameStartMatches_iff _).mpr h)]
      have : byteAt (a :: l) 4 = b := by rw [byteAt, List.getD_eq_getElem?_getD, hb]; rfl
      rw [this]; rfl
    | succ k =>
      rw [if_neg (by rw [frameStartMatches_iff]; exact hm 0 (by omega)), if_neg]
      · rw [ih (pos + 1) k ((frameStartAt_succ _ _ _).mp h)
          (fun k' hk' hh => hm (k' + 1) (by omega) ((frameStartAt_succ _ _ _).mpr hh)) (by simpa using hb)]
        congr 2; omega
      · intro hl
        exact frameStartAt_short l (by omega) k ((frameStartAt_succ _ _ _).mp h)

theorem huntSearch_none (bs : List Byte) (pos : Nat) (h : ∀ k, ¬ FrameStartAt bs k) :
    huntSearch bs pos = (none, pos + (bs.length - 4)) := by
  induction bs generalizing pos with
  | nil => rfl
  | cons a l ih =>
    rw [huntSearch, if_neg (by rw [frameStartMatches_iff]; exact h 0)]
    split
    · congr 1; simp; omega
    · rw [ih (pos + 1) (fun k hk => h (k + 1) ((frameStartAt_succ _ _ _).mpr hk))]
      congr 1; simp; omega

/-- A phase byte is the phase after another exactly when it is a phase and its value is one more modulo 32. -/
theorem phase_succ (b : Byte) (p : Phase) : (b.toNat < 32 ∧ b.setWidth 5 = p + 1) ↔ b.toNat = (p.toNat + 1) % 32 := by
  constructor
  · rintro ⟨h1, h2⟩
    have := congrArg BitVec.toNat h2
    simp [BitVec.toNat_add] at this; omega
  · intro h
    exact ⟨by omega, by apply BitVec.eq_of_toNat_eq; simp [BitVec.toNat_add]; omega⟩

theorem countOnes_xor (a m : Byte) :
    countOnes (a ^^^ m) = ((List.finRange 8).filter fun k => a.getLsb k != m.getLsb k).length := by
  have h8 : List.finRange 8 = [0, 1, 2, 3, 4, 5, 6, 7] := by decide
  have hf : ∀ f : Fin 8 → Bool, ([0, 1, 2, 3, 4, 5, 6, 7].filter f).length = (f 0).toNat + (f 1).toNat +
      (f 2).toNat + (f 3).toNat + (f 4).toNat + (f 5).toNat + (f 6).toNat + (f 7).toNat := by
    intro f
    simp only [List.filter_cons, List.filter_nil]
    cases f 0 <;> cases f 1 <;> cases f 2 <;> cases f 3 <;> cases f 4 <;> cases f 5 <;> cases f 6 <;> cases f 7 <;> rfl
  rw [h8, hf, countOnes]
  simp [BitVec.getElem_xor]

/-! ## Arbiters -/

/-- Reaching management byte positions changes the outputs and the arbiters alone (R160). -/
theorem reachPositions_rest (s : State) (output : Side) (n : Nat) :
    reachPositions s output n = { s with
      output := (reachPositions s output n).output
      management := { s.management with arbiter := (reachPositions s output n).management.arbiter } } := rfl

/-- Starting a frame on an arbiter changes the outputs and the arbiters alone (R160). -/
theorem startSending_rest (s : State) (output : Side) (skip : Nat) (source : FrameSource) (bs : List Byte) :
    startSending s output skip source bs = { s with
      output := (startSending s output skip source bs).output
      management := { s.management with
        arbiter := (startSending s output skip source bs).management.arbiter } } := rfl

/-- Starting an output frame changes the outputs and the arbiters alone (R5, R160). -/
theorem putFrame_rest (s : State) (output : Side) (timing : Timing) (sent : Nat) (f : OutFrame) :
    putFrame s output timing sent f = { s with
      output := (putFrame s output timing sent f).output
      management := { s.management with arbiter := (putFrame s output timing sent f).management.arbiter } } := rfl

/-- Leaving FOLLOW changes the outputs and the arbiters alone (R14, R160). -/
theorem leaveFollow_rest (s : State) (output : Side) (sent : Nat) :
    leaveFollow s output sent = { s with
      output := (leaveFollow s output sent).output
      management := { s.management with arbiter := (leaveFollow s output sent).management.arbiter } } := by
  unfold leaveFollow; split <;> rfl

@[simp] theorem putFrame_slots (s : State) (o : Side) (t : Timing) (n : Nat) (f : OutFrame) :
    (putFrame s o t n f).slots = s.slots := rfl
@[simp] theorem putFrame_report (s : State) (o : Side) (t : Timing) (n : Nat) (f : OutFrame) :
    (putFrame s o t n f).report = s.report := rfl
@[simp] theorem putFrame_probe (s : State) (o : Side) (t : Timing) (n : Nat) (f : OutFrame) :
    (putFrame s o t n f).probe = s.probe := rfl
@[simp] theorem putFrame_freeHops (s : State) (o : Side) (t : Timing) (n : Nat) (f : OutFrame) :
    (putFrame s o t n f).freeHops = s.freeHops := rfl
@[simp] theorem leaveFollow_slots (s : State) (o : Side) (n : Nat) : (leaveFollow s o n).slots = s.slots := by
  rw [leaveFollow_rest]
@[simp] theorem leaveFollow_report (s : State) (o : Side) (n : Nat) : (leaveFollow s o n).report = s.report := by
  rw [leaveFollow_rest]
@[simp] theorem leaveFollow_probe (s : State) (o : Side) (n : Nat) : (leaveFollow s o n).probe = s.probe := by
  rw [leaveFollow_rest]
@[simp] theorem leaveFollow_freeHops (s : State) (o : Side) (n : Nat) :
    (leaveFollow s o n).freeHops = s.freeHops := by rw [leaveFollow_rest]

/-- How many bytes of a frame have been sent by the words of R3, R37 and R160. -/
theorem sentBy_eq (f : OutFrame) (sent : Nat) : sentBy f sent = SentBy f sent := rfl

/-- The positions that a frame goes on to reach are those of bytes 5 to 8 that have not been reached and are sent by
then. -/
theorem toReach_eq (f : OutFrame) (sent : Nat) : toReach f sent = positionsBy f sent := by
  unfold toReach positionsBy
  cases f.cut with
  | some _ => rfl
  | none =>
    have count : ∀ a b : Nat,
        ((List.range 4).filter fun k => decide (a ≤ k ∧ 5 + k < b)).length = min 4 (b - 5) - a := by
      intro a b
      simp only [show List.range 4 = [0, 1, 2, 3] from rfl, List.filter_cons, List.filter_nil, decide_eq_true_eq]
      repeat' split
      all_goals simp only [List.length_cons, List.length_nil]; omega
    simpa [sentBy_eq] using count f.placed.length (SentBy f sent)

/-- What an arbiter places in some positions, and what it then holds (R160). -/
theorem fills_positionBytes (a : Option Sending) (n : Nat) : Fills a n (positionBytes a n) (arbiterAfter a n) := by
  refine ⟨?_, ?_⟩
  · rintro rfl; exact ⟨by simp [positionBytes, bytesLeft], rfl⟩
  · rintro x rfl
    exact ⟨by simp [positionBytes, bytesLeft, List.take_append, List.take_replicate], rfl⟩

/-- How an output frame ends (R14, R16, R160). -/
theorem ended_endFrame (a : Option Sending) (sent : Nat) (f : OutFrame) :
    Ended a sent f (endFrame a sent f) (arbiterAfter a (positionsBy f sent)) := by
  refine ⟨positionBytes a (positionsBy f sent), ?_, ?_, ?_, ?_⟩
  · rw [toReach_eq]; exact fills_positionBytes _ _
  · unfold endFrame; dsimp only; split <;> rfl
  · intro h
    have h' : f.cut.isSome ∨ Config.frameBytes ≤ sent := h.imp_left fun h => Option.isSome_iff_ne_none.mpr h
    unfold endFrame; rw [if_pos h']
  · intro h1 h2
    have h' : ¬ (f.cut.isSome ∨ Config.frameBytes ≤ sent) := by rw [h1]; simpa using h2
    unfold endFrame; rw [if_neg h', sentBy_eq]

/-- Starting a frame ends the frame before it (R5, R16, R160). -/
theorem endedOutput_putFrame (s : State) (output : Side) (timing : Timing) (sent : Nat) (f : OutFrame) :
    EndedOutput s (putFrame s output timing sent f) output sent
      ((putFrame s output timing sent f).output.get output).last := by
  simp only [EndedOutput, putFrame, Sides.get_set_same, arbiterAtEnd, outputPositionsBy]
  refine ⟨fun h => ?_, fun g h => ⟨_, by rw [h]; rfl, ?_⟩⟩
  · rw [h]; simp [arbiterAfter]
  · rw [h]; exact ended_endFrame _ _ _

/-- Leaving FOLLOW ends the frame that the output is sending (R14, R160). -/
theorem endedOutput_leaveFollow (s : State) (output : Side) (sent : Nat) (h : (s.output.get output).timing = .follow) :
    EndedOutput s (leaveFollow s output sent) output sent ((leaveFollow s output sent).output.get output).frame := by
  simp only [EndedOutput, leaveFollow, h, Sides.get_set_same, arbiterAtEnd, outputPositionsBy]
  refine ⟨fun h => ?_, fun g h => ⟨_, by rw [h]; rfl, ?_⟩⟩
  · rw [h]; simp [arbiterAfter]
  · rw [h]; exact ended_endFrame _ _ _

/-- The arbiter's frame ends when all that is left of it has a position in the output's frame (R160). -/
theorem endingFrame_of_fits {s : State} {output : Side} {a : Sending} (ha : s.management.arbiter.get output = some a)
    (h : a.rest = [] ∨
      ∃ f, (s.output.get output).frame = some f ∧ f.cut = none ∧ f.placed.length + a.rest.length ≤ 4) :
    endingFrame s output = some a := by
  unfold endingFrame
  rw [ha]
  rcases h with h | ⟨f, hf, hc, hl⟩
  · simp [h]
  · simp [outputPositions, hf, positionsLeft, hc]; omega

/-- Placing the last byte of an arbiter's frame places the rest of it and leaves the arbiter idle (R160). -/
theorem placeLast_eq {s : State} {output : Side} {a : Sending} (ha : s.management.arbiter.get output = some a) :
    placeLast s output a = { s with
      output := s.output.set output (placeBytes (s.output.get output) a.rest)
      management := { s.management with arbiter := s.management.arbiter.set output none } } := by
  simp [placeLast, reachPositions, ha, positionBytes, bytesLeft]

/-! ## Frames in LOCKED and line-out frames -/

/-- How a receiver in LOCKED judges a frame that it delivers, and what it then holds (R8). -/
theorem judgeLocked_taken {r : Receiver} {p ph : Phase} {f : Frame} {slipped : Bool} {miss n : Nat}
    (hp : r.phase = some p) (hn : r.nextStart = some n) (h : TakenAs p r.missCount f slipped miss ph) :
    ∃ j, judgeLocked r f.word f.phase = j ∧ (j = .good ph ∨ j = .slip ph ∨ j = .miss ph) ∧ isSlip j = slipped ∧
      receiverAfter r j = { r with phase := some ph, missCount := miss, nextStart := some (n + 250304) } := by
  refine ⟨_, rfl, ?_⟩
  unfold judgeLocked
  simp only [hp, Option.getD_some]
  rcases h with ⟨h1, h2, rfl, rfl, rfl⟩ | ⟨h1, h2, h3, rfl, rfl, rfl⟩ | ⟨h1, h2, rfl, rfl, rfl⟩
  · rw [if_neg (by rintro (h | h); exact h h1; omega), if_pos ((phase_succ _ _).mpr h2).2]
    simp [isSlip, receiverAfter, judgedStart, hn, Config.frameBytes]
  · rw [if_neg (by rintro (h | h); exact h h1; omega), if_neg (fun hh => h3 ((phase_succ _ _).mp ⟨h2, hh⟩))]
    simp [isSlip, receiverAfter, judgedStart, hn, Config.frameBytes]
  · rw [if_pos (h1.imp id id), if_pos (by omega)]
    simp [isSlip, receiverAfter, judgedStart, hn, Config.frameBytes]

/-- The third miss in a row is the loss of alignment (R8). -/
theorem judgeLocked_loss {r : Receiver} {f : Frame} (hm : 2 ≤ r.missCount)
    (h : f.word ≠ Config.alignmentWord ∨ 31 < f.phase.toNat) :
    judgeLocked r f.word f.phase = .loss (r.phase.getD 0 + 1) := by
  unfold judgeLocked
  rw [if_pos h, if_neg (by omega)]

theorem cycleAt_some {s : State} {p : Phase} {c : TxCycle} (h : s.lineTx.cycle = some c)
    (hn : c.next = p.toNat) : cycleAt s p = some c := by
  simp [cycleAt, h, hn]

theorem cycleAt_none {s : State} {p : Phase} (h : ∀ c, s.lineTx.cycle = some c → c.next ≠ p.toNat) :
    cycleAt s p = none := by
  unfold cycleAt
  cases hc : s.lineTx.cycle with
  | none => rfl
  | some c => simp [h c hc]

theorem lineSentBy_eq (s : State) (sent : Nat) : LineSentBy s sent = outputSentBy s.output.line sent := rfl

/-- All that cutting the transmit tag cycle short does (R14, R16, R17, R37). -/
theorem cutCycle_spec (s : State) (sent : Nat) :
    cutCycle s sent = { s with
      slots := (cutCycle s sent).slots
      lineTx := { s.lineTx with cycle := none, startDue := false, ending := false } } ∧
    ∀ i : Slot, (cutCycle s sent).slots[i] = SlotAtCut s sent i := by
  refine ⟨rfl, fun i => ?_⟩
  simp only [cutCycle, SlotAtCut, State.mapSlots_slot, cutTag, lineSentBy_eq]
  cases s.lineTx.ending with
  | false => simp
  | true => simp only [if_true, true_and]; split <;> rfl

/-- All that the completion of a transmit tag cycle does (R37). -/
theorem completeCycle_spec (s : State) :
    completeCycle s = { s with
      slots := (completeCycle s).slots
      output := s.output.set .line { s.output.line with
        frame := s.output.line.frame.map fun f => { f with tagsSent := f.tagsSent || s.lineTx.ending } } } ∧
    ∀ i : Slot, (completeCycle s).slots[i] = { s.slots[i] with tx := recordEmitted s.slots[i].tx } :=
  ⟨rfl, fun i => State.mapSlots_slot s (fun _ sl => { sl with tx := recordEmitted sl.tx }) i⟩

/-- All that the start of a line-out frame does: the frame before it ends, the frame's tag bytes are those of the cycle in
progress or of no cycle, and the line transmitter goes on (R5, R17, R33 to R37, R160). -/
theorem startLineFrame_spec (s : State) (timing : Timing) (sent : Nat) (f : OutFrame) :
    let t := startLineFrame s timing sent f
    ∃ slots, t.output = s.output.set .line
        { timing := timing, frame := some { f with slots := slots }, frameDue := false, last := t.output.line.last } ∧
      EndedOutput s t .line sent t.output.line.last ∧
      t = { s with
        output := t.output, slots := t.slots, lineTx := t.lineTx
        management := { s.management with arbiter := s.management.arbiter.set .line t.management.arbiter.line } } ∧
      (f.phase = 0 → slots = f.slots ∧ t.slots = s.slots ∧
        t.lineTx = { s.lineTx with cycle := none, startDue := true, ending := false }) ∧
      (f.phase ≠ 0 → cycleAt s f.phase = none →
        slots = lineTags s timing false f.phase f.slots ∧ t.slots = s.slots ∧
        t.lineTx = { s.lineTx with cycle := none, startDue := false, ending := false }) ∧
      (f.phase ≠ 0 → ∀ c, cycleAt s f.phase = some c →
        slots = lineTags s timing true f.phase f.slots ∧
        (∀ i : Slot, t.slots[i] = { s.slots[i] with
          tx := cycleNext timing s.lineTx.identity f.phase.toNat f.slots[i].tag s.slots[i].tx }) ∧
        t.lineTx = { s.lineTx with
          cycle := if f.phase = 31 then none else some { c with next := f.phase.toNat + 1 }
          startDue := false, ending := f.phase == 31 }) := by
  unfold startLineFrame
  by_cases h0 : f.phase = 0
  · rw [if_pos h0]
    exact ⟨f.slots, rfl, endedOutput_putFrame { s with lineTx := _ } .line timing sent f, rfl, fun _ => ⟨rfl, rfl, rfl⟩,
      fun h => absurd h0 h, fun h => absurd h0 h⟩
  · rw [if_neg h0]
    cases hc : cycleAt s f.phase with
    | none =>
      exact ⟨_, rfl, endedOutput_putFrame { s with lineTx := _ } .line timing sent _, rfl, fun h => absurd h h0,
        fun _ _ => ⟨rfl, rfl, rfl⟩, fun _ c h => by cases h⟩
    | some c =>
      refine ⟨_, rfl, endedOutput_putFrame
        (advanceCycle { s with lineTx := { s.lineTx with cycle := some c, startDue := false, ending := false } } timing c
          f.phase f.slots)
        .line timing sent _, rfl, fun h => absurd h h0, ?_, fun _ c' h => ?_⟩
      · intro _ h; simp at h
      · cases h
        refine ⟨rfl, fun i => ?_, rfl⟩
        simp [advanceCycle]

end Sys2Proof.Machine
end

