-- ==== Sys2Proof/Laws/Probes.lean ====
section
/-! SUPPORT. The probe table, the countdown and the search of a rotation step, said once. -/

namespace Sys2Proof.Machine

theorem mapTable_get (t : Vector (Option ProbeEntry) 8) (f : ProbeEntry → Option ProbeEntry) (k : Fin 8) :
    (mapTable t f)[k] = t[k].bind f := by
  rw [mapTable, vectorOf_get]

theorem entriesOf_eq (t : Vector (Option ProbeEntry) 8) :
    entriesOf t = (List.finRange 8).filterMap fun k => t[k] := by
  have h : t.toList = (List.finRange 8).map fun k => t[k] := by
    apply List.ext_getElem <;> simp
  rw [entriesOf, h, List.filterMap_map]; rfl

theorem mem_entriesOf (t : Vector (Option ProbeEntry) 8) (e : ProbeEntry) :
    e ∈ entriesOf t ↔ ∃ k : Fin 8, t[k] = some e := by
  rw [entriesOf_eq]; simp

/-- The wanting slots of the model are those of R107. -/
theorem wanting_iff (s : State) (state : CheckState) (i : Slot) : wanting s state i = true ↔ Wants s state i := by
  have h1 : measuresDelay s.slots[i].map = true ↔ ∃ e, s.slots[i].map.entry = some e ∧ e.delay ≠ .none := by
    rw [measuresDelay]; split <;> simp_all [-Fin.getElem_fin]
  have h2 : (entryOf s.probe.table i).isNone = true ↔
      ∀ k : Fin 8, ∀ e, s.probe.table[k] = some e → e.slot ≠ i := by
    rw [entryOf, Option.isNone_iff_eq_none, List.find?_eq_none]
    constructor
    · intro h k e hk he; exact absurd (h e ((mem_entriesOf _ _).mpr ⟨k, hk⟩)) (by simp [he])
    · intro h e he; obtain ⟨k, hk⟩ := (mem_entriesOf _ _).mp he; simpa using h k e hk
  unfold wanting Wants
  rw [Bool.and_eq_true, Bool.and_eq_true, Bool.and_eq_true, h1, h2]
  simp only [beq_iff_eq, and_assoc]

/-- The search finds the first slot past the rotation index, with wrap-around, that meets a test. -/
theorem searchOrder_find (x : Slot) (f : Slot → Bool) (i : Slot) :
    (searchOrder x).find? f = some i ↔
      f i = true ∧ ∃ d : Slot, i = x + 1 + d ∧ ∀ d' < d, ¬ f (x + 1 + d') = true := by
  rw [searchOrder, List.find?_map, Option.map_eq_some_iff]
  constructor
  · rintro ⟨d, hd, rfl⟩
    rw [List.find?_eq_some_iff_getElem] at hd
    obtain ⟨h1, n, hn, h2, h3⟩ := hd
    refine ⟨h1, d, rfl, fun d' hd' => ?_⟩
    have : n = d.val := by rw [← h2]; simp
    subst this
    simpa using h3 d'.val hd'
  · rintro ⟨h1, d, rfl, h3⟩
    refine ⟨d, ?_, rfl⟩
    rw [List.find?_eq_some_iff_getElem]
    exact ⟨h1, d.val, by simp, by simp, fun j hj => by simpa using h3 ⟨j, by omega⟩ hj⟩

theorem searchOrder_find_none (x : Slot) (f : Slot → Bool) :
    (searchOrder x).find? f = none ↔ ∀ i, ¬ f i = true := by
  rw [List.find?_eq_none]
  constructor
  · intro h i; exact h i (by rw [searchOrder, List.mem_map]; exact ⟨i - (x + 1), by simp, by simp⟩)
  · intro h i _; exact h i

theorem lowestFree_eq_some (t : Vector (Option ProbeEntry) 8) (k : Fin 8) :
    lowestFree t = some k ↔ t[k] = none ∧ ∀ k' < k, t[k'] ≠ none := by
  rw [lowestFree, List.find?_eq_some_iff_getElem]
  constructor
  · rintro ⟨h1, n, hn, h2, h3⟩
    have : n = k.val := by rw [← h2]; simp
    subst this
    exact ⟨by simpa using h1, fun k' hk' hn => absurd (h3 k'.val hk') (by simpa using hn)⟩
  · rintro ⟨h1, h3⟩
    refine ⟨by simpa using h1, k.val, by simp, by simp, fun j hj => ?_⟩
    simpa [Option.ne_none_iff_isSome] using h3 ⟨j, by omega⟩ hj

theorem lowestFree_eq_none (t : Vector (Option ProbeEntry) 8) : lowestFree t = none ↔ ∀ k : Fin 8, t[k] ≠ none := by
  rw [lowestFree, List.find?_eq_none]; simp

/-- The countdown does what R109 and R112 say. -/
theorem countdown_spec (s : State) :
    CountedDown s (countdown { s with probe := { s.probe with boundariesDue := s.probe.boundariesDue - 1 } }) := by
  refine ⟨?_, ?_, ?_, ?_⟩
  · intro k; simp only [countdown]; rw [mapTable_get]
  · simp only [countdown, expiring]
    rw [entriesOf_eq, List.filter_filterMap]
    congr 2
    generalize List.finRange 8 = l
    induction l with
    | nil => rfl
    | cons a l ih =>
      rw [List.filterMap_cons, List.filter_cons]
      cases h : s.probe.table[a] with
      | none => simpa [h, -Fin.getElem_fin] using ih
      | some e =>
        by_cases hr : e.remaining ≤ 1 <;> simpa [h, hr, -Fin.getElem_fin, Option.filter_some] using ih
  · intro i
    simp only [countdown]
    rw [State.mapSlots_slot]
    simp only [expiring]
    generalize hsl : s.slots[i] = sl
    obtain ⟨map, pm, tag, tx, ctx, ⟨nn, field, le, lr, pe, ef, av, sc⟩, q⟩ := sl
    cases field with
    | none => exact ⟨none, rfl, by simp, by simp⟩
    | some f =>
      simp only [fieldAfterTimeout]
      have hany : (List.filter (fun e => decide (e.remaining ≤ 1)) (entriesOf s.probe.table)).any
          (fun e => e.slot == i && e.number == f.number) = true ↔
          ∃ k : Fin 8, ∃ e, s.probe.table[k] = some e ∧ e.remaining ≤ 1 ∧ e.slot = i ∧ e.number = f.number := by
        rw [List.any_eq_true]
        constructor
        · rintro ⟨e, he, hh⟩
          rw [List.mem_filter, mem_entriesOf] at he
          obtain ⟨⟨k, hk⟩, hr⟩ := he
          exact ⟨k, e, hk, by simpa using hr, by simpa using hh⟩
        · rintro ⟨k, e, hk, hr, hh⟩
          refine ⟨e, ?_, by simpa using hh⟩
          rw [List.mem_filter, mem_entriesOf]
          exact ⟨⟨k, hk⟩, by simpa using hr⟩
      by_cases h : (List.filter (fun e => decide (e.remaining ≤ 1)) (entriesOf s.probe.table)).any
          (fun e => e.slot == i && e.number == f.number) = true
      · rw [if_pos h]; exact ⟨none, rfl, fun _ => rfl, fun hn => absurd ⟨f, rfl, hany.mp h⟩ hn⟩
      · rw [if_neg h]; refine ⟨some f, rfl, ?_, fun _ => rfl⟩
        rintro ⟨f', hf', hx⟩; cases hf'; exact absurd (hany.mpr hx) h
  · simp only [countdown]; rfl

end Sys2Proof.Machine
end

