-- ==== Sys2Proof/Laws/Requests.lean ====
section
/-! SUPPORT. What taking a request of the management channel can do, said once. -/

namespace Sys2Proof.Machine

theorem findRequest_side {s : State} {side : Side} {c : Command} {r : Request} (h : findRequest s side c = some r) :
    r.side = side ∧ r.command = c := by
  have := List.find?_some h
  simpa using this

/-- A reply placed for a request changes the reply buffers alone. -/
theorem placeReply_eq (m : ManagementUnit) (r : Request) (outcome : ReplyOutcome) (data : List Byte) (b : Bool) :
    placeReply m r outcome data b = { m with reply := (placeReply m r outcome data b).reply } := by
  unfold placeReply; split <;> rfl

theorem placeReply_live {m : ManagementUnit} {r : Request} (h : r.live = true) (outcome : ReplyOutcome)
    (data : List Byte) (b : Bool) :
    (placeReply m r outcome data b).reply =
      m.reply.set r.side (.holding (replyFrame m.identity r.source r.sequence r.payload outcome data) b) := by
  simp [placeReply, h]

theorem placeReply_dead {m : ManagementUnit} {r : Request} (h : r.live = false) (outcome : ReplyOutcome)
    (data : List Byte) (b : Bool) : placeReply m r outcome data b = m := by
  simp [placeReply, h]

/-- Without a waiting request nothing is taken. -/
theorem serve_none {s : State} {side : Side} {c : Command} (h : findRequest s side c = none)
    (answer : State → List Byte → Answer) : serve s side c answer = s := by
  simp [serve, h]

/-- The state after a request has been taken: the answer's state, but for the waiting requests and the replies. -/
theorem serve_state {s : State} {side : Side} {c : Command} {r : Request} (h : findRequest s side c = some r)
    (answer : State → List Byte → Answer) :
    serve s side c answer = { (answer s r.payload).state with management := (serve s side c answer).management } := by
  unfold serve; rw [h]

/-- The management unit after a request has been taken. -/
theorem serve_management {s : State} {side : Side} {c : Command} {r : Request} (h : findRequest s side c = some r)
    (answer : State → List Byte → Answer) :
    OnlyReplies (answer s r.payload).state.management (serve s side c answer).management := by
  unfold serve OnlyReplies; rw [h]; dsimp only
  rw [placeReply_eq]

/-- The oldest request is answered with the outcome and the data of the answer. -/
theorem serve_replied {s : State} {side : Side} {c : Command} {r : Request} (h : findRequest s side c = some r)
    {answer : State → List Byte → Answer} {outcome : ReplyOutcome} {data : List Byte} {b : Bool}
    (ho : (answer s r.payload).outcome = outcome) (hd : (answer s r.payload).data = data) (hb : (c == .restart) = b)
    (hq : (answer s r.payload).state.management.requests = s.management.requests)
    (hr : (answer s r.payload).state.management.reply = s.management.reply) :
    Replied side c r outcome data b s (serve s side c answer) := by
  subst ho hd hb
  have hs : serve s side c answer = { (answer s r.payload).state with
      management := placeReply { (answer s r.payload).state.management with
        requests := dropRequest (answer s r.payload).state.management.requests side c } r
        (answer s r.payload).outcome (answer s r.payload).data (c == .restart) } := by
    unfold serve; rw [h]
  rw [hs]
  refine ⟨?_, fun hl => ?_, fun hl => ?_⟩
  · dsimp only; rw [placeReply_eq, hq]; rfl
  · dsimp only; rw [placeReply_live hl, (findRequest_side h).1]; dsimp only; rw [hr]; simp [placeReply, hl]
  · dsimp only; rw [placeReply_dead hl]; exact hr

/-- A request that its owner refuses changes nothing but its reply. -/
theorem serve_refused {s : State} {side : Side} {c : Command} {r : Request} (h : findRequest s side c = some r)
    {answer : State → List Byte → Answer} {outcome : ReplyOutcome} {data : List Byte} (hc : (c == .restart) = false)
    (ha : answer s r.payload = { state := s, outcome := outcome, data := data }) :
    Refused side c r outcome data s (serve s side c answer) := by
  refine ⟨serve_replied h (by rw [ha]) (by rw [ha]) hc (by rw [ha]) (by rw [ha]), ?_, ?_⟩
  · have := serve_state h answer
    rwa [ha] at this
  · have := serve_management h answer
    rwa [ha] at this

end Sys2Proof.Machine
end

