-- ==== Sys2Proof/Laws/Routes.lean ====
section
/-! SUPPORT. Freeing and allocating route lists, and reading the hops of a request, said once. -/

namespace Sys2Proof.Machine

/-- A freed list stands on the free list in reverse order (R61). -/
theorem pushHops_eq (free : List (Fin 256)) (route : List Hop) :
    pushHops free route = (route.map Hop.index).reverse ++ free := by
  unfold pushHops
  induction route generalizing free with
  | nil => rfl
  | cons h t ih => simp [ih]

/-- An allocated list takes the entries from the head of the free list, in order (R62). -/
theorem popHops_index : ∀ (free : List (Fin 256)) (hops : List (Half × HopCondition)), hops.length ≤ free.length →
    (popHops free hops).map Hop.index = free.take hops.length
  | [], [], _ => rfl
  | _ :: _, [], _ => rfl
  | [], _ :: _, h => by simp at h
  | _ :: free, (_, _) :: hops, h => by simp [popHops, popHops_index free hops (by simpa using h)]

/-- Each hop takes its node and condition from its hop of the request (R62). -/
theorem popHops_get : ∀ (free : List (Fin 256)) (hops : List (Half × HopCondition)), hops.length ≤ free.length →
    ∀ k, k < hops.length → ∃ h, (popHops free hops)[k]? = some h ∧ hops[k]? = some (h.node, h.condition)
  | [], [], _ => by simp
  | _ :: _, [], _ => by simp
  | [], _ :: _, h => by simp at h
  | _ :: free, (_, _) :: hops, h => by
    intro k hk
    cases k with
    | zero => simp [popHops]
    | succ k => simpa [popHops] using popHops_get free hops (by simpa using h) k (by simpa using hk)

theorem popHops_length : ∀ (free : List (Fin 256)) (hops : List (Half × HopCondition)), hops.length ≤ free.length →
    (popHops free hops).length = hops.length
  | [], [], _ => rfl
  | _ :: _, [], _ => rfl
  | [], _ :: _, h => by simp at h
  | _ :: free, (_, _) :: hops, h => by simp [popHops, popHops_length free hops (by simpa using h)]

theorem hopsOf_length (p : List Byte) : ∀ n hs, hopsOf p n = some hs → hs.length = n
  | 0, hs, h => by simp only [hopsOf, Option.some.injEq] at h; subst h; rfl
  | n + 1, hs, h => by
    simp only [hopsOf] at h
    split at h
    · next hs' c h1 _ =>
      split at h
      · simp only [Option.some.injEq] at h; subst h; simp [hopsOf_length p n hs' h1]
      · simp at h
    · simp at h

theorem slotOf_eq_some {b : Byte} {i : Slot} (h : i.val = b.toNat) : slotOf b = some i := by simp [slotOf, ← h]

theorem slotOf_eq_none {b : Byte} (h : 128 ≤ b.toNat) : slotOf b = none := by
  simp [slotOf, show ¬ b.toNat < 128 by omega]

end Sys2Proof.Machine
end

