-- ==== Sys2Proof/WellFormed.lean ====
section
/-! DEFINITION. Which command terms the outside of the part can send. The step is total: a term that fails a check is no
event of the part, and the meanings answer on it all the same. -/

namespace Sys2Proof

/-- A carrier frame has 55 carried bytes and 1,952 payload bytes in every slot (R3). -/
def Frame.wf (f : Frame) : Bool :=
  f.carried.length == Config.carriedBytes && f.slots.toList.all fun b => b.payload.length == Config.payloadBytes

/-- A frame starts in one of the four management byte positions of an output frame (R160). -/
def skipWf (skip : Nat) : Bool := decide (skip < 4)

/-- An output has sent at most a whole frame (R3). -/
def sentWf (sent : Nat) : Bool := decide (sent ≤ Config.frameBytes)

/-- A CLEAR DETECTED goes to a block that owns an item it can select (R180). -/
def clearBlockWf : Block → Bool
  | .reportUnit => true
  | .managementUnit => true
  | .probeEngine => true
  | .lineReceiver => false
  | .dropReceiver => false
  | .lineTransmitter => false
  | .dropTransmitter => false
  | .routePool => false
  | .timebase => false

/-- Whether a command term is one that can be sent. -/
def Instr.wf : Instr → Bool
  | .lockedFrameJudged _ arrival => arrival.frame.wf && sentWf arrival.sent
  | .noticeStart skip => skipWf skip
  | .arbiterFrameStart _ skip => skipWf skip
  | .clearDetected _ block => clearBlockWf block
  | .powerOn => true
  | .localPeriodBoundary _ => true
  | .settleLimitReached _ => true
  | .soakEnd _ => true
  | .defectHoldReached _ => true
  | .intervalCountExpiry => true
  | .probeTimeout _ => true
  | .huntCandidate _ _ => true
  | .confirmFrame _ _ _ => true
  | .cycleReport _ => true
  | .streamLoss _ => true
  | .transmitCycleStart => true
  | .transmitCycleComplete => true
  | .localFrameStart _ => true
  | .echoReceipt _ => true
  | .acceptedSample _ => true
  | .withdrawRequest _ => true
  | .filterResetRequest _ => true
  | .baselineWrite _ => true
  | .finding _ => true
  | .arbiterFrameEnd _ => true
  | .managementFrame _ => true
  | .setNodeIdentity _ => true
  | .readStatus _ _ => true
  | .openWindow _ => true
  | .closeWindow _ => true
  | .setSlotRoles _ => true
  | .loadMapEntry _ => true
  | .clearMapEntry _ => true
  | .linkRoute _ => true
  | .setProfile _ => true
  | .setProbing _ => true
  | .setReporting _ => true
  | .reverify _ => true
  | .queryTrail _ => true
  | .queryTag _ => true
  | .queryRoute _ => true
  | .restart _ => true
  | .restartTakesEffect moment => sentWf moment.sent
  | .contextRestart _ => true
  | .refclkTick => true
  | .resetnAsserted => true
  | .tagReceiverRestart => true
  | .lineTransmitterRestart => true
  | .probeEngineRestart => true
  | .reportUnitRestart => true

end Sys2Proof
end

