-- ==== Sys2Proof/Tests/Slice0.lean ====
section
/-! SUPPORT. Tests of single operations against the worked examples of the manual, the terms that WellFormed refuses, and a
witness for the hypotheses of each statement: a concrete state that meets them, for each of its clauses. -/

-- One theorem after another: each of the many that wait for the kernel at once would hold a thread of its own.
set_option Elab.async false

namespace Sys2Proof.Tests

open Sys2Proof.Machine

/-! ## Small states -/

/-- A map entry that accepts every identity, in a delay mode. -/
def demoEntry (d : DelayMode) : MapEntry :=
  { mode := .masked ⟨0, 0, 0⟩ ⟨0, 0, 0⟩, routeCheck := .exact, delay := d, profile := 0 }

/-- A slot with a LOADED entry in a state of its check. -/
def demoSlot (c : CheckState) (d : DelayMode) : SlotState :=
  { SlotState.reset with
    map := { SlotMap.reset with rxRole := .terminate, txRole := .originate, entry := some (demoEntry d) }
    context := { Context.reset with state := c } }

/-- The reset state with one slot, number 3, as given. -/
def demo (sl : SlotState) : State := State.reset.modSlot 3 fun _ => sl

/-- A slot with the events in flight as given. -/
def flying (q : InFlight) (sl : SlotState) : SlotState := { sl with inFlight := q }

/-- A held tag of epoch 0 with a clear window flag and an empty route. -/
def demoTag : HeldTag :=
  { identity := ⟨9, 1, 2⟩, epoch := 0, windowFlag := false, overflow := false, route := [] }

/-- A report of a valid cycle with that tag held. -/
def demoReport : CycleReport :=
  { result := .valid, parityErrors := 0, forwardDefectSeen := false, held := some demoTag, heldChanged := false
    protect := .working, protectChanged := false, tagLoss := false, cycleStart := some 0 }

/-- A slot at which a report waits. -/
def reported (r : CycleReport) (sl : SlotState) : SlotState := flying { InFlight.reset with reports := [r] } sl

/-- A receiver in LOCKED with a miss count, which goes by phase 4. -/
def lockedAt (misses : Nat) : Receiver :=
  { align := .locked, missCount := misses, phase := some 4, nextStart := some 1000, searchFrom := 0 }

/-- The reset state with both receivers in LOCKED. -/
def lockedState (misses : Nat) : State := { State.reset with receiver := ⟨lockedAt misses, lockedAt misses⟩ }

/-- The same with slot 3 as given. -/
def lockedDemo (sl : SlotState) : State := { demo sl with receiver := ⟨lockedAt 0, lockedAt 0⟩ }

/-- A frame with a phase byte. -/
def demoFrame (b : Byte) : Frame :=
  { word := Config.alignmentWord, phase := b, mgmt := #v[0, 0, 0, 0], carried := List.replicate 55 0
    slots := Vector.replicate 128 { tag := 0, parity := 0, condition := 0, payload := [] } }

/-- The same with a damaged alignment word. -/
def damagedFrame (b : Byte) : Frame := { demoFrame b with word := #v[0xD3, 0x2E, 0x71, 0x0D] }

/-- An output frame with a number of management bytes placed. -/
def demoOut (placed : Nat) : OutFrame :=
  { phase := 5, tagsSent := false, placed := List.replicate placed 0, carried := [], cut := none
    slots := Vector.replicate 128 { tag := 0, parity := 0, condition := 0, payload := [] } }

/-- The reset state with that frame on both outputs and with the management unit as given. -/
def sendingState (placed : Nat) (m : ManagementUnit) : State :=
  { State.reset with
    management := m
    output := ⟨⟨.follow, some (demoOut placed), none, false⟩, ⟨.follow, some (demoOut placed), none, false⟩⟩ }

/-- A request that has arrived on the line side. -/
def demoRequest (c : Command) (payload : List Byte) : Request :=
  { side := .line, command := c, source := 5, sequence := 1, payload := payload, todo := [], data := [], live := true }

/-- The management unit with that request waiting. -/
def asking (c : Command) (payload : List Byte) : ManagementUnit :=
  { ManagementUnit.reset with requests := [demoRequest c payload] }

/-- The state with that request waiting and slot 3 as given. -/
def asked (c : Command) (payload : List Byte) (sl : SlotState) : State :=
  { demo sl with management := asking c payload }

/-- The answer of a step as a state. -/
def after (s : State) (o : Host.Outcome State Fault Refusal) : State :=
  match o with
  | .next t => t
  | .fault _ => s
  | .refused _ => s

/-! ## WellFormed -/

theorem test_wf_carried_length : (Instr.lockedFrameJudged .line ⟨{ demoFrame 0 with carried := [0] }, 0⟩).wf = false := by
  decide +kernel

theorem test_wf_payload_length : (Instr.lockedFrameJudged .line ⟨demoFrame 0, 0⟩).wf = false := by
  decide +kernel

theorem test_wf_frame_accepted :
    (Instr.lockedFrameJudged .line ⟨{ demoFrame 0 with
      slots := Vector.replicate 128 { tag := 0, parity := 0, condition := 0, payload := List.replicate 1952 0 } },
      250304⟩).wf = true := by
  decide +kernel

theorem test_wf_sent : (Instr.restartTakesEffect ⟨.line, 250305⟩).wf = false ∧
    (Instr.restartTakesEffect ⟨.line, 250304⟩).wf = true := by decide

theorem test_wf_skip : (Instr.noticeStart 4).wf = false ∧ (Instr.arbiterFrameStart .drop 4).wf = false ∧
    (Instr.noticeStart 3).wf = true := by decide

theorem test_wf_clear_block : (Instr.clearDetected .line .routePool).wf = false ∧
    (Instr.clearDetected .line .probeEngine).wf = true := by decide

theorem test_no_word_spells_a_command : decodeTableWord 16 0xFFFF = none := rfl

/-! ## The manual's worked values -/

/-- R20: the nine ASCII bytes 31h to 39h give 29B1h. -/
theorem test_check_of_the_nine_digits :
    checkOf [0x31, 0x32, 0x33, 0x34, 0x35, 0x36, 0x37, 0x38, 0x39] = 0x29B1 := by decide +kernel

/-- R20: a tag of 32 bytes of 00h never has a correct check. -/
theorem test_idle_tag_is_check_error : judgeTag (List.replicate 32 0) = .invalid .checkError := by decide +kernel

/-- R131: the table of steps for k = 3. -/
theorem test_rounding_table : [58, 60, 52, 4, 5, -4, -20, -60].map (fun d => roundHalfEven d (2 ^ 3)) =
    [7, 8, 6, 0, 1, 0, -2, -8] := by decide

/-- R130 and its worked case: 40,902 steps to 40,909, and 40,900 to 40,908. -/
theorem test_filter_steps : averageAfter (some 40902) 2560 3 = 40909 ∧ averageAfter (some 40900) 2560 3 = 40908 ∧
    averageAfter (some 40962) 2560 3 = 40962 ∧ averageAfter none 2560 3 = 40960 := by decide

/-- R126 and its worked case: the sample across the wrap of the stamp counter. -/
theorem test_sample_across_the_wrap : sampleOf (BitVec.ofNat 32 4294960000) 31748 0 36484 = 2560 ∧
    sampleOf (BitVec.ofNat 32 4294960000) 48132 1 36484 = 2560 := by decide +kernel

/-- R136: the tie cases, the worked case and the largest value. -/
theorem test_one_way_delay : [1024, 3072, 40909, 40962, 16777200].map oneWayDelay =
    [62, 188, 2497, 2500, 1023999] := by decide

/-- R135: a shift of -32,768 fits, one below it saturates. -/
theorem test_reported_shift : reportedShift (-32768) = (-32768, false) ∧ reportedShift (-32769) = (-32768, true) ∧
    reportedShift 35909 = (32767, true) := by decide

/-- R55: the clamps that the rule names. -/
theorem test_profile_clamps : clamp 1 65535 0 = 1 ∧ clamp 0 7 9 = 7 ∧ clamp 0 32767 40000 = 32767 := by decide

/-- R61: the last hop of a freed list is the new free head. -/
theorem test_freed_list_is_reversed :
    pushHops [9] [⟨1, 7, .always⟩, ⟨2, 7, .always⟩, ⟨3, 7, .always⟩] = [3, 2, 1, 9] := by decide

/-- R68: hops of both conditions stand in for each other between the two routes. -/
theorem test_expected_route :
    expectedRoute [⟨0, 10, .always⟩, ⟨1, 11, .workingOnly⟩, ⟨2, 12, .protectOnly⟩] .working = [10, 11] ∧
    expectedRoute [⟨0, 10, .always⟩, ⟨1, 11, .workingOnly⟩, ⟨2, 12, .protectOnly⟩] .protect = [10, 12] := by decide

/-- R15: a LOCAL frame at stamp 16,384 has phase 0, and one 512 ticks earlier phase 31. -/
theorem test_local_phase : localPhase 16384 = 0 ∧ localPhase 15872 = 31 := by decide

/-- R2: the first boundary comes at stamp 16,384, not before. -/
theorem test_first_boundary :
    (after State.reset (exec .refclkTick
      { State.reset with timebase := { stamp := 16383, periodClock := 0, boundariesDue := 0 } })).timebase =
      { stamp := 16384, periodClock := 0, boundariesDue := 1 } ∧
    (after State.reset (exec .refclkTick
      { State.reset with timebase := { stamp := 16382, periodClock := 0, boundariesDue := 0 } })).timebase =
      { stamp := 16383, periodClock := 0, boundariesDue := 0 } := by decide +kernel

/-- R158, R165: the reply to SET NODE IDENTITY carries the new identity as its source. -/
theorem test_set_node_identity_reply :
    (after State.reset (exec (.setNodeIdentity .line)
      (asked .setNodeIdentity [0x10, 0x12, 0x34] SlotState.reset))).management.reply.line =
      .holding (buildFrame 5 0x1234 0x02 1 [0x10, 0x00]) false := by decide +kernel

/-- R106: an interval of 0 is stored as 1 and a timeout of 1 as 2. -/
theorem test_set_probing_clamps :
    let t := after State.reset (exec (.setProbing .line) (asked .setProbing [0x41, 0, 1] SlotState.reset))
    t.probe.interval = 1 ∧ t.probe.timeout = 2 := by decide +kernel

/-- R164: a command parameter of slot 128 is refused with VALUE, before the WINDOW gate. -/
theorem test_query_route_of_slot_128 :
    (after State.reset (exec (.queryRoute .line) (asked .queryRoute [0x62, 128] SlotState.reset))).management.reply.line =
      .holding (buildFrame 5 65535 0x02 1 [0x62, 0x02]) false := by decide +kernel

/-- R177: the trail record has 47 bytes. -/
theorem test_trail_record_length : (trailRecord (demo (demoSlot .verified .baseline)) 3).length = 47 := by
  decide +kernel

/-! ## Witnesses: the machine, the timebase and the boundaries -/

theorem witness_StepRunsTheFrontCommand :
    ({ State.reset with pending := [.refclkTick] } : State).pending = .refclkTick :: [] ∧ State.reset.pending = [] :=
  ⟨rfl, rfl⟩

theorem witness_ResetnHoldsThePart :
    ({ State.reset with resetHeld := true } : State).resetHeld = true ∧ Instr.refclkTick ≠ .powerOn ∧
    Instr.refclkTick ≠ .resetnAsserted := by decide

theorem witness_TheTimebaseCountsTicksAndPeriods :
    let s := { State.reset with timebase := { stamp := 16384, periodClock := 0, boundariesDue := 1 } }
    s.resetHeld = false ∧ 0 < s.timebase.boundariesDue := by decide

/-- A slot with one boundary to take. -/
def bounded (sl : SlotState) : State := demo (flying { InFlight.reset with boundaries := 1 } sl)

/-- A slot in a state with its timers as given. -/
def timed (c : CheckState) (settle soak defect : Nat) (now : Bool) : SlotState :=
  { demoSlot c .none with
    context := { Context.reset with
      state := c, settleTimer := settle, soakCount := soak, defectTimer := defect, defectNow := now } }

theorem witness_BoundaryCountsBelowTheLimits :
    let boundary := fun s : State => s.resetHeld = false ∧ 0 < s.slots[(3 : Slot)].inFlight.boundaries ∧
      slotProfile (checkInputs s) s.slots[(3 : Slot)].map = .defaults
    (boundary (bounded (timed .settling 311 0 0 false)) ∧ 311 + 1 < Profile.defaults.settleLimit) ∧
    (boundary (bounded (timed .soaking 0 3123 0 false)) ∧ 3123 + 1 < Profile.defaults.soakLength) ∧
    (boundary (bounded (timed .verified 0 0 311 true)) ∧ 311 + 1 < Profile.defaults.defectHold) ∧
    boundary (bounded (timed .verified 0 0 0 false)) ∧ boundary (bounded (timed .failed 0 0 0 false)) := by
  decide +kernel

theorem witness_TimersAtTheirLimitsFailTheSlot :
    let boundary := fun s : State => s.resetHeld = false ∧ 0 < s.slots[(3 : Slot)].inFlight.boundaries ∧
      slotProfile (checkInputs s) (boundaryTaken s.slots[(3 : Slot)]).map = .defaults
    (boundary (bounded (timed .settling 312 0 0 false)) ∧ Profile.defaults.settleLimit ≤ 312 + 1) ∧
    (boundary (bounded (timed .verified 0 0 312 true)) ∧ Profile.defaults.defectHold ≤ 312 + 1) := by
  decide +kernel

/-- A slot at the last boundary of its soak, with its filter as given. -/
def soaked (d : DelayMode) (average : Option Nat) (samples : Nat) : SlotState :=
  { timed .soaking 0 3124 0 false with
    map := (demoSlot .soaking d).map, probe := { SlotProbe.reset with average := average, sampleCount := samples } }

theorem witness_SoakEndDecidesTheSlot :
    let ending := fun (d : DelayMode) (s : State) => s.resetHeld = false ∧
      0 < s.slots[(3 : Slot)].inFlight.boundaries ∧ s.slots[(3 : Slot)].context.state = .soaking ∧
      s.slots[(3 : Slot)].map.entry = some (demoEntry d) ∧
      s.profiles[(demoEntry d).profile].soakLength ≤ s.slots[(3 : Slot)].context.soakCount + 1
    ending .none (bounded (soaked .none none 0)) ∧
    (ending .baseline (bounded (soaked .baseline (some 1000) 3)) ∧ 3 < Profile.defaults.minSamples) ∧
    (ending .baseline (bounded (soaked .baseline (some 1000) 4)) ∧ Profile.defaults.minSamples ≤ 4 ∧
      baselineOf (soaked .baseline (some 1000) 4).map .working = none) ∧
    (ending (.fixed 487) (bounded (soaked (.fixed 487) (some 1000) 4)) ∧
      Profile.defaults.tolerance < ((1000 : Int) - 487).natAbs) ∧
    (ending (.fixed 488) (bounded (soaked (.fixed 488) (some 1000) 4)) ∧
      ((1000 : Int) - 488).natAbs ≤ Profile.defaults.tolerance) := by
  decide +kernel

/-- A slot with a held tag, an average and a working baseline of shift 40,909 - 5. -/
theorem witness_FindingsAreSnapshotsOfTheCheck :
    let sl := { demoSlot .verified .baseline with
      map := { (demoSlot .verified .baseline).map with workingBaseline := some 5 }
      tag := { TagReceiver.reset with held := some demoTag }
      probe := { SlotProbe.reset with average := some 40909, sampleCount := 1 } }
    sl.tag.held = some demoTag ∧ sl.probe.average = some 40909 ∧ sl.map.entry = some (demoEntry .baseline) ∧
    sl.tag.heldProtect = .working ∧ sl.map.workingBaseline = some 5 := by decide

theorem witness_EntriesToTheStatesOfACheck :
    let sl := fun n : Nat => { demoSlot .soaking .none with
      context := { Context.reset with state := .soaking, restartCount := n } }
    let budget := fun n => (slotProfile (checkInputs State.reset) (sl n).map).restartBudget
    budget 3 < (sl 3).context.restartCount + 1 ∧ (sl 2).context.restartCount + 1 ≤ budget 2 := by decide +kernel

/-- The probe engine with one entry for slot 3 and boundaries due. -/
def probing (count remaining : Nat) (launch : Option Stamp) (sl : SlotState) : State :=
  { demo sl with probe := { ProbeEngine.reset with
      table := ProbeEngine.reset.table.set 2 (some { slot := 3, number := 7, launch := launch, remaining := remaining })
      intervalCount := count, boundariesDue := 1 } }

theorem witness_ProbeBoundaryCountsDown :
    let s := probing 2 1 none (demoSlot .soaking .baseline)
    s.resetHeld = false ∧ 0 < s.probe.boundariesDue ∧ s.probe.intervalCount + 1 < s.probe.interval ∧
    s.probe.table[(2 : Fin 8)] = some { slot := 3, number := 7, launch := none, remaining := 1 } := by decide +kernel

/-- A part at which the interval runs out with nothing in the probe table. -/
def intervalOver (sl : SlotState) : State :=
  { demo sl with probe := { ProbeEngine.reset with intervalCount := 3, boundariesDue := 1 } }

/-- The same after the countdown. -/
def counted (sl : SlotState) : State :=
  countdown { intervalOver sl with probe := { (intervalOver sl).probe with boundariesDue := (intervalOver sl).probe.boundariesDue - 1 } }

theorem intervalOver_counts_down (sl : SlotState) : CountedDown (intervalOver sl) (counted sl) := countdown_spec _

theorem intervalOver_meets_the_interval (sl : SlotState) :
    (intervalOver sl).resetHeld = false ∧ 0 < (intervalOver sl).probe.boundariesDue ∧
      (intervalOver sl).probe.interval ≤ (intervalOver sl).probe.intervalCount + 1 :=
  ⟨rfl, Nat.one_pos, Nat.le_refl 4⟩

theorem firstWanting_of_find {s : State} {state : CheckState} {i : Slot}
    (h : (searchOrder s.probe.rotationIndex).find? (wanting s state) = some i) : FirstWanting s state i := by
  obtain ⟨h1, d, hd, hm⟩ := (searchOrder_find _ _ _).mp h
  exact ⟨(wanting_iff _ _ _).mp h1, d, hd, fun d' hd' hw => hm d' hd' ((wanting_iff _ _ _).mpr hw)⟩

/-- A slot soaking, a slot verified while none soaks, and no slot wanting. -/
theorem witness_IntervalExpiryTakesARotationStep :
    FirstWanting (counted (demoSlot .soaking .baseline)) .soaking 3 ∧
    (FirstWanting (counted (demoSlot .verified .baseline)) .verified 3 ∧
      ∀ j, ¬ Wants (counted (demoSlot .verified .baseline)) .soaking j) ∧
    (∀ i, ¬ Wants (counted (demoSlot .idle .none)) .soaking i ∧ ¬ Wants (counted (demoSlot .idle .none)) .verified i) ∧
    ((counted (demoSlot .soaking .baseline)).probe.table[(0 : Fin 8)] = none ∧
      ∀ k' : Fin 8, k' < 0 → (counted (demoSlot .soaking .baseline)).probe.table[k'] ≠ none) := by
  refine ⟨firstWanting_of_find (by decide +kernel), ⟨firstWanting_of_find (by decide +kernel), fun j h => ?_⟩,
    fun i => ⟨fun h => ?_, fun h => ?_⟩, by decide +kernel, by decide⟩
  all_goals
    first
    | exact absurd ((wanting_iff _ _ _).mpr h)
        ((searchOrder_find_none (counted (demoSlot .verified .baseline)).probe.rotationIndex _).mp (by decide +kernel) j)
    | exact absurd ((wanting_iff _ _ _).mpr h)
        ((searchOrder_find_none (counted (demoSlot .idle .none)).probe.rotationIndex _).mp (by decide +kernel) i)

/-- A probe table without a free index: the clause in which the rotation step does nothing. -/
theorem witness_IntervalExpiry_full_table :
    let s := { intervalOver (demoSlot .soaking .baseline) with probe :=
      { (intervalOver (demoSlot .soaking .baseline)).probe with
        table := Vector.replicate 8 (some { slot := 9, number := 1, launch := none, remaining := 2 }) } }
    ∀ k : Fin 8, (countdown s).probe.table[k] ≠ none := by
  decide +kernel

/-- A table with an entry whose last period the boundary takes: the clause of PROBE_TIMEOUT. -/
theorem witness_IntervalExpiry_timeout :
    let s := probing 3 1 (some 0) (demoSlot .soaking .baseline)
    s.resetHeld = false ∧ 0 < s.probe.boundariesDue ∧ s.probe.interval ≤ s.probe.intervalCount + 1 ∧
    s.probe.table[(2 : Fin 8)] = some { slot := 3, number := 7, launch := some 0, remaining := 1 } := by decide +kernel

/-! ## Witnesses: receivers and frames -/

theorem witness_SearchAndConfirmFindTheAlignment :
    (State.reset.resetHeld = false ∧ (State.reset.receiver.get .line).align = .hunt) ∧
    (FrameStartAt [0x00, 0xD3, 0x2E, 0x71, 0x0C, 0x1F] 1 ∧
      (∀ k' < 1, ¬ FrameStartAt [0x00, 0xD3, 0x2E, 0x71, 0x0C, 0x1F] k')) ∧
    (∀ k, ¬ FrameStartAt [0xD3, 0x2E, 0x71, 0x0C, 0x20] k) ∧
    (let s := { State.reset with receiver := ⟨{ Receiver.reset with align := .confirm 0 31 }, Receiver.reset⟩ }
     s.resetHeld = false ∧ (s.receiver.get .line).align = .confirm 0 31 ∧
     (0x00 : Byte).toNat = ((31 : Phase).toNat + 1) % 32 ∧ (0x20 : Byte).toNat ≠ ((31 : Phase).toNat + 1) % 32) := by
  refine ⟨⟨rfl, rfl⟩, ⟨⟨rfl, rfl, rfl, rfl, 0x1F, rfl, by decide⟩, fun k' hk h => ?_⟩, fun k h => ?_, by decide⟩
  · obtain rfl : k' = 0 := by omega
    exact absurd h.1 (by decide)
  · obtain ⟨h1, -, -, -, b, hb, hlt⟩ := h
    match k with
    | 0 => simp at hb; subst hb; simp at hlt
    | 1 => simp at h1
    | k + 2 => simp at hb

/-- The demo output frame with one management byte, sent whole and cut off after byte 5. -/
theorem witness_OutputFramesAreLaidOut :
    let o := fun cut : Option Nat => ({ State.reset.output.drop with frame := some { demoOut 1 with
      placed := [0xC3], cut := cut, carried := List.replicate 55 7
      slots := Vector.replicate 128 { tag := 1, parity := 2, condition := 3, payload := List.replicate 1952 4 } } } : Output)
    State.reset.output.drop.frame = none ∧ (o none).frame.isSome = true ∧
    [0, 1, 2, 3, 4, 5, 6, 8].map (outputByte (o none)) = [0xD3, 0x2E, 0x71, 0x0C, 5, 0xC3, 0, 0] ∧
    [9, 63, 64, 65, 66, 446, 447, 448, 250303].map (outputByte (o none)) = [7, 7, 1, 2, 3, 2, 3, 4, 4] ∧
    [4, 5, 6, 64].map (outputByte (o (some 6))) = [5, 0xC3, 0, 0] := by
  decide +kernel

theorem witness_LockedLineFrameIsDelivered :
    let s := lockedState 1
    (s.resetHeld = false ∧ s.receiver.line.align = .locked ∧ s.receiver.line.phase = some 4 ∧
      s.receiver.line.nextStart = some 1000) ∧
    TakenAs 4 1 (demoFrame 5) false 0 5 ∧ TakenAs 4 1 (demoFrame 31) true 0 31 ∧
    TakenAs 4 1 (demoFrame 0) true 0 0 ∧ TakenAs 4 1 (demoFrame 32) false 2 5 ∧
    TakenAs 4 1 (damagedFrame 5) false 2 5 := by
  unfold TakenAs
  dsimp only
  repeat' apply And.intro
  all_goals decide +kernel

theorem witness_ThirdMissLosesAlignment :
    let s := lockedState 2
    let followed := { s with output := ⟨{ s.output.line with timing := .follow }, { s.output.drop with timing := .follow }⟩ }
    (s.resetHeld = false ∧ s.receiver.line.align = .locked ∧ s.receiver.drop.align = .locked ∧
      s.receiver.line.nextStart = some 1000 ∧ s.receiver.drop.nextStart = some 1000 ∧
      2 ≤ s.receiver.line.missCount ∧ 2 ≤ s.receiver.drop.missCount) ∧
    ((damagedFrame 5).word ≠ Config.alignmentWord ∧ 31 < (demoFrame 32).phase.toNat) ∧
    (s.output.drop.timing = .localTimed ∧ s.output.line.timing = .localTimed) ∧
    (followed.output.drop.timing = .follow ∧ followed.output.line.timing = .follow) := by decide +kernel

/-- A part in FOLLOW that sends the line-out frame with the phase-31 bytes of a tag cycle, with a miss count. -/
def endingCycle (misses : Nat) (tagsSent : Bool) : State :=
  { (lockedState misses).mapSlots fun _ sl =>
      { sl with tx := { sl.tx with completed := some { source := .carried, bytes := [] } } } with
    output := ⟨{ timing := .follow, frame := some { demoOut 0 with phase := 31, tagsSent := tagsSent }, last := none,
                 frameDue := false }, State.reset.output.drop⟩
    lineTx := { identity := some 9, cycle := none, startDue := false, ending := true } }

/-- Whether a slot's cycle is recorded as its last emitted tag once the completion is taken, after line-out's phase-31 frame
has been cut off by the drop receiver's loss when a number of its bytes had been sent. -/
def recordedAfterLoss (tagsSent : Bool) (sent : Nat) (i : Slot) : Bool :=
  let s := endingCycle 2 tagsSent
  let t := after s (exec (.lockedFrameJudged .drop ⟨damagedFrame 5, sent⟩) s)
  (after t (exec .transmitCycleComplete t)).slots[i].tx.lastEmitted.isSome

/-- R3, R17, R37: slot 3's tag byte is byte 73, so 74 bytes sent complete its cycle and that of no later slot; once the
completion has been taken, all tag bytes have been sent. -/
theorem test_cut_frame_completes_no_later_cycle :
    recordedAfterLoss false 0 0 = false ∧ recordedAfterLoss false 73 3 = false ∧ recordedAfterLoss false 74 3 = true ∧
    recordedAfterLoss false 74 4 = false ∧ recordedAfterLoss true 0 127 = true := by decide +kernel

/-- The clause of a cycle cut short in its last frame. -/
theorem witness_ThirdMiss_cuts_the_last_frame :
    let s := endingCycle 2 false
    s.resetHeld = false ∧ s.receiver.drop.align = .locked ∧ s.receiver.drop.nextStart = some 1000 ∧
    2 ≤ s.receiver.drop.missCount ∧ s.output.line.timing = .follow ∧ s.lineTx.ending = true ∧
    (SlotAtCut s 74 3).tx.completed.isSome = true ∧ (SlotAtCut s 74 4).tx.completed = none := by decide +kernel

/-- A transmit tag cycle that goes on with the frame of phase 5. -/
def cycling (timing : Timing) (next : Nat) : State :=
  { lockedState 0 with
    timebase := { State.reset.timebase with stamp := 2560 }
    output := ⟨{ timing := timing, frame := none, last := none, frameDue := true }, State.reset.output.drop⟩
    lineTx := { identity := some 9, cycle := some { start := 0, next := next }, startDue := false, ending := false } }

theorem witness_LockedDropFrameIsDelivered :
    let s := cycling .follow 5
    (s.resetHeld = false ∧ s.receiver.drop.align = .locked ∧ s.receiver.drop.phase = some 4 ∧
      s.receiver.drop.nextStart = some 1000) ∧
    (TakenAs 4 s.receiver.drop.missCount (demoFrame 5) false 0 5 ∧ (5 : Phase) ≠ 0 ∧ s.output.line.timing = .follow ∧
      s.lineTx.cycle = some { start := 0, next := 5 }) ∧
    TakenAs 4 s.receiver.drop.missCount (demoFrame 0) true 0 0 ∧
    (cycling .localTimed 5).output.line.timing = .localTimed ∧
    (∀ c, (cycling .follow 6).lineTx.cycle = some c → c.next ≠ (5 : Phase).toNat) := by
  unfold TakenAs
  refine ⟨by decide +kernel, by decide +kernel, by decide +kernel, rfl, fun c h => ?_⟩
  simp only [cycling, Option.some.injEq] at h
  subst h; decide

theorem witness_LocalFrameStartsAtItsStamp :
    let ready := fun (s : State) (side : Side) => s.resetHeld = false ∧ (s.output.get side).timing = .localTimed ∧
      (s.output.get side).frameDue = true ∧ s.timebase.stamp.toNat % 512 = 0
    ready State.reset .drop ∧ ready State.reset .line ∧
    (ready (cycling .localTimed 5) .line ∧ 2560 / 512 % 32 = 5 ∧
      (cycling .localTimed 5).lineTx.cycle = some { start := 0, next := 5 }) ∧
    (ready (cycling .localTimed 6) .line ∧ (cycling .localTimed 6).lineTx.cycle = some { start := 0, next := 6 }) := by
  decide +kernel

/-! ## Witnesses: trail tags -/

/-- An assembly of the bytes of a tag. -/
def assembled (bs : List Byte) : TagReceiver :=
  { TagReceiver.reset with assembly := Vector.ofFn fun p : Fin 32 => bs[p.val]? }

/-- A tag with some bytes replaced and its check made correct. -/
def checked (at_ : Nat) (b : Byte) : List Byte :=
  let bs := ((originTag (some 9) Latched.reset).set at_ b).take 30
  bs ++ halfBytes (checkOf bs)

theorem witness_AssemblyIsJudgedByTheFirstRow :
    let holds := fun bs : List Byte => bs.length = 32 ∧ (∀ p : Fin 32, (assembled bs).assembly[p] = bs[p.val]?) ∧
      (assembled bs).slipMark = false
    let correct := fun bs : List Byte => halfAt bs 30 = checkOf (bs.take 30)
    (∃ p : Fin 32, TagReceiver.reset.assembly[p] = none) ∧ TagReceiver.reset.slipMark = false ∧
    (holds (List.replicate 32 0) ∧ ¬ correct (List.replicate 32 0)) ∧
    (holds (checked 0 0x5D) ∧ correct (checked 0 0x5D) ∧ byteAt (checked 0 0x5D) 0 ≠ 0x5C) ∧
    (holds (checked 16 7) ∧ correct (checked 16 7) ∧ ¬ (byteAt (checked 16 7) 16).toNat ≤ 6) ∧
    (holds (checked 16 6) ∧ correct (checked 16 6) ∧ (byteAt (checked 16 6) 16).toNat ≤ 6) ∧
    (holds (checked 10 4) ∧ correct (checked 10 4) ∧ ¬ (byteAt (checked 10 4) 10).toNat ≤ 3) := by
  decide +kernel

theorem witness_LineCycleEndReportsTheCycle :
    let repeated := { assembled (checked 16 6) with
      runLength := 2, lastValid := some { bytes := checked 16 6, stamp := 0 } }
    (judgeAssembly repeated = .valid ∧ (some 0 : Option Stamp) ≠ none ∧ repeated.runLength ≤ 2) ∧
    (judgeAssembly { TagReceiver.reset with tagLossCount := 7 } = .invalid .incomplete ∧
      TagReceiver.reset.runLength ≤ 2) := by decide +kernel

theorem witness_OriginatedTagsAreValid :
    let l := { Latched.reset with probeAge := 3, echoAge := 3, echoHold := 16777215 }
    l.probeAge ≤ 3 ∧ l.echoAge ≤ 3 ∧ l.echoHold < 16777216 := by decide

/-- A tag transmitter at the start of a cycle, with a role latched. -/
def starting (role : TxRole) : TagTransmitter :=
  { TagTransmitter.reset with latched := { Latched.reset with role := role } }

theorem witness_StampingKeepsTheVerdictOfTheCheck :
    let t := starting .stamp
    (t.latched.role = .stamp ∧ t.decision = .undecided ∧ t.receivedCheck = 0xFFFF ∧ t.emittedCheck = 0xFFFF ∧
      t.emitted = []) ∧
    ((checked 16 0).length = 32 ∧ byteAt (checked 16 0) 0 = 0x5C ∧ (byteAt (checked 16 0) 16).toNat = 0) ∧
    ((checked 16 6).length = 32 ∧ byteAt (checked 16 6) 0 = 0x5C ∧ (byteAt (checked 16 6) 16).toNat = 6) := by
  decide +kernel

theorem witness_WholeCyclesThatAreNotStamped :
    (starting .carry).latched.role = .carry ∧ (starting .originate).latched.role = .originate ∧
    ((starting .stamp).latched.role = .stamp ∧ (starting .stamp).decision = .undecided ∧
      (starting .stamp).emitted = []) ∧
    ((checked 16 7).length = 32 ∧ 6 < (byteAt (checked 16 7) 16).toNat) ∧ byteAt (checked 0 0x5D) 0 ≠ 0x5C := by
  decide +kernel

/-- A part whose phase-0 line-out frame has started, with one entry in the probe table and slot 3 as given. -/
def cycleDue (launch : Option Stamp) (sl : SlotState) : State :=
  { probing 0 3 launch sl with
    output := ⟨{ timing := .follow, frame := some (demoOut 0), last := none, frameDue := false }, State.reset.output.drop⟩
    lineTx := { identity := none, cycle := none, startDue := true, ending := false } }

theorem witness_TransmitCycleStartLatchesAndLaunches :
    let due := fun s : State => s.resetHeld = false ∧ s.output.line.frame = some (demoOut 0) ∧
      s.lineTx.startDue = true ∧ OneEntryPerSlot s
    let pended := { demoSlot .soaking .baseline with
      probe := { SlotProbe.reset with pendingEcho := some { number := 4, received := 0 } } }
    due (cycleDue none (demoSlot .soaking .baseline)) ∧ due (cycleDue (some 0) pended) ∧
    due (cycleDue none SlotState.reset) := by
  unfold OneEntryPerSlot; dsimp only; decide +kernel

theorem witness_CompletedCyclesReplaceTheRecord :
    let e : EmittedTag := { source := .carried, bytes := List.replicate 32 0 }
    let s := demo { SlotState.reset with tx := { TagTransmitter.reset with completed := some e } }
    (s.resetHeld = false ∧ s.slots[(3 : Slot)].tx.completed = some e ∧ s.slots[(4 : Slot)].tx.completed = none ∧
      s.output.line.frame = none) ∧
    ((endingCycle 0 false).output.line.frame = some { demoOut 0 with phase := 31, tagsSent := false } ∧
      (endingCycle 0 false).lineTx.ending = true) := by
  decide +kernel

/-! ## Witnesses: contexts -/

/-- A report waits at slot 3 and has been judged. -/
def judged (s : State) (r : CycleReport) (defect : Bool) : Prop :=
  s.resetHeld = false ∧ s.slots[(3 : Slot)].inFlight.reports = [r] ∧
    (defect = true ↔ (r.forwardDefectSeen = true ∨ r.tagLoss = true ∨
      (r.held = none ∧ s.slots[(3 : Slot)].context.lossMark = true) ∨ s.receiver.line.align ≠ .locked))

theorem judged_counts {s : State} {r : CycleReport} {defect : Bool} (h : judged s r defect) :
    (defect = true ↔ countsAsDefect s 3 r) := h.2.2

theorem witness_ReportOutsideACheck :
    judged (demo (reported demoReport (demoSlot .idle .none))) demoReport true ∧
    judged (lockedDemo (reported demoReport (demoSlot .failed .none))) demoReport false := by
  unfold judged; decide +kernel

/-- The tag of the demo report with its fields as given. -/
def tagged (window : Bool) (epoch : Half) (route : List Half) : CycleReport :=
  { demoReport with
    heldChanged := true, held := some { demoTag with windowFlag := window, epoch := epoch, route := route } }

/-- An entry that accepts no tag of the demo reports. -/
def strict (sl : SlotState) : SlotState :=
  { sl with map := { sl.map with entry := some { demoEntry .none with mode := .listed ⟨8, 8, 8⟩ none } } }

theorem witness_ReportInSettling :
    let at_ := fun (r : CycleReport) (d : Bool) (s : State) => judged s r d ∧ s.slots[(3 : Slot)].context.state = .settling ∧
      s.slots[(3 : Slot)].map.entry.isSome = true
    let sl := demoSlot .settling .none
    at_ demoReport true (demo (reported demoReport sl)) ∧
    at_ { demoReport with held := none } false (lockedDemo (reported { demoReport with held := none } sl)) ∧
    (at_ demoReport false (lockedDemo (reported demoReport (strict sl))) ∧
      matchResult { demoEntry .none with mode := .listed ⟨8, 8, 8⟩ none } demoTag.identity = .noMatch) ∧
    (at_ (tagged true 0 []) false (lockedDemo (reported (tagged true 0 []) sl)) ∧
      matchResult (demoEntry .none) demoTag.identity ≠ .noMatch) ∧
    (at_ (tagged false 1 []) false (lockedDemo (reported (tagged false 1 []) sl)) ∧ (1 : Half) ≠ sl.map.expectedEpoch) ∧
    (at_ (tagged false 0 [5]) false (lockedDemo (reported (tagged false 0 [5]) sl)) ∧
      routeMatches (demoEntry .none) [] { demoTag with route := [5] } .working = false) ∧
    (at_ demoReport false (lockedDemo (reported demoReport sl)) ∧
      routeMatches (demoEntry .none) [] demoTag .working = true) := by
  unfold judged
  dsimp only
  repeat' apply And.intro
  all_goals decide +kernel

/-- Reports of every row in a state, each judged without defect but the first. -/
def rowsMet (c : CheckState) : Prop :=
  let at_ := fun (r : CycleReport) (d : Bool) (s : State) => judged s r d ∧ s.slots[(3 : Slot)].context.state = c ∧
    s.slots[(3 : Slot)].map.entry.isSome = true ∧ (r.heldChanged = true → r.held.isSome = true)
  let sl := demoSlot c .none
  at_ { demoReport with tagLoss := true } true (lockedDemo (reported { demoReport with tagLoss := true } sl)) ∧
  at_ (tagged false 0 []) false (lockedDemo (reported (tagged false 0 []) (strict sl))) ∧
  at_ (tagged true 0 []) false (lockedDemo (reported (tagged true 0 []) sl)) ∧
  at_ (tagged false 1 []) false (lockedDemo (reported (tagged false 1 []) sl)) ∧
  at_ (tagged false 0 [5]) false (lockedDemo (reported (tagged false 0 [5]) sl)) ∧
  at_ { demoReport with protectChanged := true } false
    (lockedDemo (reported { demoReport with protectChanged := true } sl)) ∧
  at_ { demoReport with parityErrors := 1 } false (lockedDemo (reported { demoReport with parityErrors := 1 } sl)) ∧
  at_ demoReport false (lockedDemo (reported demoReport sl))

theorem witness_ReportInSoaking : rowsMet .soaking := by
  unfold rowsMet judged
  dsimp only
  repeat' apply And.intro
  all_goals decide +kernel

theorem witness_ReportInVerified : rowsMet .verified := by
  unfold rowsMet judged
  dsimp only
  repeat' apply And.intro
  all_goals decide +kernel

theorem witness_StreamLossActsByState :
    let lost := fun (c : CheckState) (now : Bool) =>
      let s := demo (flying { InFlight.reset with losses := 1 } (timed c 0 0 0 now))
      s.resetHeld = false ∧ 0 < s.slots[(3 : Slot)].inFlight.losses ∧ s.slots[(3 : Slot)].context.state = c ∧
        s.slots[(3 : Slot)].context.defectNow = now
    lost .idle false ∧ lost .window false ∧ lost .failed false ∧ lost .settling false ∧ lost .soaking false ∧
    lost .verified true ∧ lost .verified false := by decide +kernel

/-- A slot in VERIFIED at which an accepted sample waits, with its filter as given. -/
def sampled (d : DelayMode) (average : Option Nat) (samples strikes : Nat) : State :=
  demo { demoSlot .verified d with
    context := { Context.reset with state := .verified, strikes := strikes }
    probe := { SlotProbe.reset with average := average, sampleCount := samples }
    inFlight := { InFlight.reset with samples := 1 } }

/-- The same after a cycle end that has changed the held protect state, with its report waiting. -/
def switched : State :=
  (sampled .baseline (some 1000) 4 0).modSlot 3 fun sl =>
    { sl with
      map := { sl.map with workingBaseline := some 0, protectBaseline := some 1000 }
      tag := { sl.tag with heldProtect := .protect }
      inFlight := { sl.inFlight with reports := [{ demoReport with protectChanged := true, protect := .protect }] } }

theorem witness_AcceptedSampleTestsTheShift :
    let waits := fun (s : State) (d : DelayMode) (a : Option Nat) => s.resetHeld = false ∧
      0 < s.slots[(3 : Slot)].inFlight.samples ∧ s.slots[(3 : Slot)].context.state = .verified ∧
      s.slots[(3 : Slot)].probe.average = a ∧ s.slots[(3 : Slot)].map.entry = some (demoEntry d) ∧
      s.slots[(3 : Slot)].inFlight.reports = [] ∧ s.slots[(3 : Slot)].tag.heldProtect = .working ∧
      s.slots[(3 : Slot)].inFlight.filterResets = []
    waits (sampled (.fixed 0) none 0 0) (.fixed 0) none ∧ waits (sampled .none (some 1) 1 0) .none (some 1) ∧
    (waits (sampled (.fixed 487) (some 1000) 4 2) (.fixed 487) (some 1000) ∧
      Profile.defaults.tolerance < ((1000 : Int) - 487).natAbs ∧ Profile.defaults.shiftPersistence ≤ 2 + 1) ∧
    (waits (sampled (.fixed 488) (some 1000) 4 2) (.fixed 488) (some 1000) ∧
      ((1000 : Int) - 488).natAbs ≤ Profile.defaults.tolerance ∧ 0 < Profile.defaults.shiftPersistence) ∧
    (waits (sampled .baseline (some 1000) 4 0) .baseline (some 1000) ∧ Profile.defaults.minSamples ≤ 4) ∧
    (waits (sampled .baseline (some 1000) 3 0) .baseline (some 1000) ∧ 3 < Profile.defaults.minSamples) := by
  decide +kernel

/-- The clauses of a waiting protect-changed report and of a waiting filter reset request. -/
theorem witness_AcceptedSample_before_its_report :
    (switched.resetHeld = false ∧ 0 < switched.slots[(3 : Slot)].inFlight.samples ∧
      switched.slots[(3 : Slot)].inFlight.reports = [{ demoReport with protectChanged := true, protect := .protect }] ∧
      switched.slots[(3 : Slot)].tag.heldProtect = .protect) ∧
    (let s := demo { demoSlot .verified .baseline with inFlight := { InFlight.reset with
       samples := 1, filterResets := [.settling, .protectChanged] } }
     s.resetHeld = false ∧ 0 < s.slots[(3 : Slot)].inFlight.samples ∧
     .protectChanged ∈ s.slots[(3 : Slot)].inFlight.filterResets) := by
  decide +kernel

/-- R92: an average that stands is tested while the filter reset of an entry to SETTLING waits, and not while the reset of a
protect-changed report does (R101). -/
theorem test_sample_before_a_filter_reset :
    let strikes := fun reason : FilterReset =>
      let s := (sampled (.fixed 487) (some 1000) 4 0).modSlot 3 (sendFilterReset reason)
      (after s (exec (.acceptedSample 3) s)).slots[(3 : Slot)].context.strikes
    strikes .settling = 1 ∧ strikes .protectChanged = 0 := by decide +kernel

/-- R51, R92: a missing baseline is learned for the side held now, also while the report of its change waits. -/
theorem test_baseline_of_the_held_side :
    let s := switched.modSlot 3 fun sl => { sl with map := { sl.map with workingBaseline := none, protectBaseline := none } }
    let m := (after s (exec (.acceptedSample 3) s)).slots[(3 : Slot)].map
    m.protectBaseline = some 1000 ∧ m.workingBaseline = none := by decide +kernel

/-- R92, R133: the reference changes at the cycle end that changes the held protect state. Against the side held now the
shift is 0 and the strikes return to 0; before that cycle end it is 1,000 against the old side, and a strike is counted. -/
theorem test_reference_of_the_held_side :
    let strikes := fun side : Protect =>
      let s := switched.modSlot 3 fun sl => { sl with
        tag := { sl.tag with heldProtect := side }, context := { sl.context with strikes := 1 } }
      (after s (exec (.acceptedSample 3) s)).slots[(3 : Slot)].context.strikes
    strikes .protect = 0 ∧ strikes .working = 2 := by decide +kernel

/-! ## Witnesses: the probe engine and the report unit -/

theorem witness_RequestsOfTheContextsAreTaken :
    let s := demo (flying { InFlight.reset with
      withdraws := 1, filterResets := [.settling], baselines := [(.working, 5)] } (demoSlot .window .baseline))
    s.resetHeld = false ∧ 0 < s.slots[(3 : Slot)].inFlight.withdraws ∧
    s.slots[(3 : Slot)].inFlight.filterResets = [.settling] ∧
    s.slots[(3 : Slot)].inFlight.baselines = [(.working, 5)] := by decide +kernel

/-- An echo of a number with a hold, at slot 3 as given, whose entry of number 7 was launched at stamp 0. -/
def echoed (number : Byte) (stamp : Stamp) (sl : SlotState) : State :=
  probing 0 3 (some 0) (flying { InFlight.reset with
    echoes := [{ probeNumber := 5, probeAge := 0, echoNumber := number, echoAge := 0, echoHold := 0
                 cycleStart := stamp }] } sl)

theorem witness_EchoReceiptMatchesTheEntry :
    let waits := fun (number : Byte) (stamp : Stamp) (s : State) => s.resetHeld = false ∧
      s.slots[(3 : Slot)].inFlight.echoes =
        [{ probeNumber := 5, probeAge := 0, echoNumber := number, echoAge := 0, echoHold := 0, cycleStart := stamp }] ∧
      OneEntryPerSlot s ∧
      s.probe.table[(2 : Fin 8)] = some { slot := 3, number := 7, launch := some 0, remaining := 3 }
    let sl := demoSlot .verified .baseline
    (waits 7 1048575 (echoed 7 1048575 sl) ∧ sl.map.txRole = .originate ∧ sl.map.entry = some (demoEntry .baseline)) ∧
    waits 7 1048576 (echoed 7 1048576 sl) ∧ waits 0 0 (echoed 0 0 sl) ∧ waits 8 0 (echoed 8 0 sl) ∧
    (let empty := { SlotState.reset with map := { SlotMap.reset with txRole := .originate } }
     waits 7 0 (echoed 7 0 empty) ∧ empty.map.entry = none ∧ empty.map.txRole = .originate) ∧
    (waits 7 0 (echoed 7 0 SlotState.reset) ∧ SlotState.reset.map.txRole ≠ .originate) := by
  unfold OneEntryPerSlot; dsimp only; decide +kernel

/-- A finding of slot 3 with a cause. -/
def found (cause : Option Cause) : Finding :=
  snapshot (checkInputs State.reset) 3 (demoSlot .failed .none) .failed cause false

/-- A part at which that finding waits, with the queue as given. -/
def finding (cause : Option Cause) (queue : List QueuedFinding) : State :=
  { demo (flying { InFlight.reset with findings := [found cause] } (demoSlot .failed .none)) with
    report := { ReportUnit.reset with queue := queue } }

theorem witness_FindingIsClassedFlaggedAndQueued :
    let old : QueuedFinding := { finding := found none, cls := .info, superseded := 255 }
    let waits := fun (s : State) (cause : Option Cause) => s.resetHeld = false ∧
      s.slots[(3 : Slot)].inFlight.findings = [found cause]
    (waits (finding (some .misconnected) []) (some .misconnected) ∧
      State.reset.report.settings.severity[causeIndex .misconnected] = .critical ∧
      State.reset.report.settings.report.critical = true ∧
      ∀ q ∈ (finding (some .misconnected) []).report.queue, q.finding.slot ≠ 3) ∧
    (waits (finding none [old]) none ∧ OneRecordPerSlot (finding none [old]) ∧ old.finding.slot = (found none).slot) ∧
    (let off := { ReportSettings.reset with reportInfo := false }
     off.reportInfo = false) := by
  unfold OneRecordPerSlot; decide +kernel

theorem witness_NoticeStartSendsTheHeadRecord :
    let s := { sendingState 3 { ManagementUnit.reset with identity := some 1 } with
      report := { ReportUnit.reset with
        queue := [{ finding := found none, cls := .info, superseded := 0 }]
        settings := { ReportSettings.reset with destination := some 2 } } }
    s.resetHeld = false ∧ s.report.queue = [{ finding := found none, cls := .info, superseded := 0 }] ∧
    s.management.identity = some 1 ∧ s.report.settings.destination = some 2 ∧
    s.management.arbiter.get .drop = none ∧ s.management.forward.get .drop = .free ∧
    s.management.reply.get .drop = .free ∧ HasPosition s .drop (demoOut 3) 0 := by
  unfold HasPosition; dsimp only; decide +kernel

/-! ## Witnesses: the management channel -/

theorem witness_ManagementFramesAndRepliesHaveTheirForm :
    (List.replicate 200 (0 : Byte)).length ≤ 200 ∧ (List.replicate 7 (0 : Byte)).length = 7 ∧
    200 < (201 : Byte).toNat ∧ (List.replicate 198 (0 : Byte)).length ≤ 198 :=
  ⟨Nat.le_of_eq List.length_replicate, List.length_replicate, by decide, Nat.le_of_eq List.length_replicate⟩

/-- A part whose channel receiver of a side has completed a frame. -/
def heard (side : Side) (m : ManagementUnit) (bs : List Byte) : State :=
  { State.reset with management := { m with channel := m.channel.set side { taken := none, completed := [bs] } } }

theorem witness_ManagementFrameIsFiltered :
    let holds := fun (side : Side) (s : State) (bs : List Byte) => s.resetHeld = false ∧
      (s.management.channel.get side).completed = [bs]
    let good := fun bs : List Byte =>
      checkOf ((bs.drop 1).take (7 + (byteAt bs 7).toNat)) = halfAt bs (8 + (byteAt bs 7).toNat)
    let frame := fun (dest : Half) (kind : Byte) (payload : List Byte) => buildFrame dest 7 kind 0 payload
    (holds .line (heard .line .reset [0xC3, 0, 1, 0, 2, 1, 0, 0, 1, 1]) [0xC3, 0, 1, 0, 2, 1, 0, 0, 1, 1] ∧
      ¬ good [0xC3, 0, 1, 0, 2, 1, 0, 0, 1, 1]) ∧
    (holds .line (heard .line .reset (frame 65535 1 [])) (frame 65535 1 []) ∧ good (frame 65535 1 [])) ∧
    (holds .line (heard .line .reset (frame 8 1 [])) (frame 8 1 []) ∧ good (frame 8 1 []) ∧ halfAt (frame 8 1 []) 1 = 8) ∧
    (holds .drop (heard .drop .reset (frame 65535 1 [0x62, 3])) (frame 65535 1 [0x62, 3]) ∧
      good (frame 65535 1 [0x62, 3]) ∧ lengthRight .queryRoute [0x62, 3] = true) ∧
    (good (frame 65535 1 [0x62]) ∧ lengthRight .queryRoute [0x62] = false ∧ commandOf 0x62 = some .queryRoute) ∧
    (good (frame 65535 1 [0x00]) ∧ commandOf 0x00 = none) ∧
    (let busy := { ManagementUnit.reset with reply := ⟨.free, .reserved⟩, forward := ⟨.sending, .free⟩ }
     holds .drop (heard .drop busy (frame 65535 1 [])) (frame 65535 1 []) ∧ busy.reply.get .drop ≠ .free ∧
     busy.forward.get (opposite .drop) ≠ .free) := by
  decide +kernel

theorem witness_ArbiterStartsTheWaitingFrame :
    let bs := buildFrame 1 2 3 4 []
    let starts := fun m : ManagementUnit => (sendingState 1 m).resetHeld = false ∧
      (sendingState 1 m).management.arbiter.get .line = none ∧ HasPosition (sendingState 1 m) .line (demoOut 1) 2
    starts { ManagementUnit.reset with forward := ⟨.holding bs, .free⟩ } ∧
    starts { ManagementUnit.reset with reply := ⟨.holding bs false, .free⟩ } ∧ starts ManagementUnit.reset := by
  unfold HasPosition; dsimp only; decide +kernel

/-- A part of which an arbiter has the last bytes of a frame to place, with three positions reached on both outputs. -/
def ending (source : FrameSource) (rest : List Byte) (m : ManagementUnit) : State :=
  sendingState 3 { m with arbiter := ⟨some { source := source, rest := rest }, none⟩ }

theorem witness_ArbiterEndsItsFrame :
    let ends := fun (source : FrameSource) (rest : List Byte) (m : ManagementUnit) =>
      (ending source rest m).resetHeld = false ∧
      (ending source rest m).management.arbiter.get .line = some { source := source, rest := rest } ∧
      (rest = [] ∨ ((ending source rest m).output.get .line).frame = some (demoOut 3) ∧ (demoOut 3).cut = none ∧
        (demoOut 3).placed.length + rest.length ≤ 4)
    ends .forward [9] { ManagementUnit.reset with forward := ⟨.sending, .free⟩ } ∧
    (ends .reply [] { ManagementUnit.reset with reply := ⟨.sending false, .free⟩ } ∧
      (⟨.sending false, .free⟩ : Sides ReplyBuffer).get .line ≠ .sending true) ∧
    ends .notice [9] .reset := by
  decide +kernel

/-- Two RESTART replies, each with its last byte to place in the fourth position of its output's frame (R182). -/
def bothRestarting : State :=
  sendingState 3 { ManagementUnit.reset with
    reply := ⟨.sending true, .sending true⟩
    arbiter := ⟨some { source := .reply, rest := [9] }, some { source := .reply, rest := [8] }⟩ }

/-- The same after the restart of the line side, with the drop side's last byte placed at the same moment. -/
def firstRestarted : State := after bothRestarting (exec (.restartTakesEffect ⟨.line, 9⟩) bothRestarting)

theorem witness_RestartIsAnsweredAndTakesEffect :
    (bothRestarting.resetHeld = false ∧ bothRestarting.management.restartEnded.get .line = false ∧
      bothRestarting.management.reply.get .line = .sending true ∧
      bothRestarting.management.arbiter.get .line = some { source := .reply, rest := [9] } ∧
      (bothRestarting.output.get .line).frame = some (demoOut 3) ∧ (demoOut 3).cut = none ∧
      (demoOut 3).placed.length + 1 ≤ 4) ∧
    firstRestarted.resetHeld = false ∧ firstRestarted.management.restartEnded.get .drop = true := by decide +kernel

/-- R14, R160: drop-out is cut off after byte 6, so positions 7 and 8 take no byte and the arbiter goes on with them in the
next output frame. -/
theorem test_cut_frame_keeps_the_bytes_not_placed :
    let s := { lockedState 2 with
      output := ⟨State.reset.output.line, { timing := .follow, frame := some (demoOut 1), last := none, frameDue := false }⟩
      management := { ManagementUnit.reset with
        arbiter := ⟨none, some { source := .forward, rest := [1, 2, 3, 4, 5] }⟩ } }
    let t := after s (exec (.lockedFrameJudged .line ⟨damagedFrame 5, 7⟩) s)
    t.management.arbiter.drop = some { source := .forward, rest := [2, 3, 4, 5] } ∧
    t.output.drop.frame = some { demoOut 1 with placed := [0, 1], cut := some 7 } := by
  decide +kernel

/-- R182: each of two restarts whose last bytes are placed at the same moment takes effect as its own event; one whose last
byte has not been placed then is cut off. -/
theorem test_restarts_at_one_moment :
    (after firstRestarted (exec (.restartTakesEffect ⟨.drop, 9⟩) firstRestarted)).restartsDue.reportUnit = 2 ∧
    (let s := after bothRestarting (exec (.restartTakesEffect ⟨.line, 8⟩) bothRestarting)
     (after s (exec (.restartTakesEffect ⟨.drop, 9⟩) s)).restartsDue.reportUnit = 1) := by decide +kernel

theorem witness_RestartReachesEachBlock :
    let due := fun (c : CheckState) (s : State) => s.resetHeld = false ∧ 0 < s.slots[(3 : Slot)].inFlight.restarts ∧
      s.slots[(3 : Slot)].context.state = c
    let sl := fun c => flying { InFlight.reset with restarts := 1 } (demoSlot c .none)
    (due .window (demo (sl .window)) ∧ hasRecord (demo (sl .window)).report.queue 3 = false) ∧
    (let s := { demo (sl .failed) with restartsDue := { State.reset.restartsDue with reportUnit := 1 } }
     due .failed s ∧ 0 < s.restartsDue.reportUnit) ∧
    (let s := { State.reset with
       restartsDue := { tagReceiver := 1, lineTransmitter := 1, probeEngine := 1, reportUnit := 1 } }
     s.resetHeld = false ∧ 0 < s.restartsDue.tagReceiver ∧ 0 < s.restartsDue.lineTransmitter ∧
     0 < s.restartsDue.probeEngine ∧ 0 < s.restartsDue.reportUnit) := by decide +kernel

/-! ## Witnesses: the commands -/

/-- A request of a command waits on the line side with a payload. -/
def waiting (c : Command) (payload : List Byte) (sl : SlotState) : Prop :=
  (asked c payload sl).resetHeld = false ∧ findRequest (asked c payload sl) .line c = some (demoRequest c payload)

theorem waits (c : Command) (payload : List Byte) (sl : SlotState) : waiting c payload sl := by
  refine ⟨rfl, ?_⟩
  simp [findRequest, asked, asking, demoRequest]

theorem demo_slot (c : Command) (payload : List Byte) (sl : SlotState) : (asked c payload sl).slots[(3 : Slot)] = sl := by
  show (demo sl).slots[(3 : Slot)] = sl
  exact State.modSlot_same ..

theorem witness_RestartIsAnswered : waiting .restart [0x7F] SlotState.reset := waits ..

theorem witness_NodeIdentityIsSetOnce :
    waiting .setNodeIdentity [0x10, 0, 0] SlotState.reset ∧ waiting .setNodeIdentity [0x10, 255, 255] SlotState.reset ∧
    waiting .setNodeIdentity [0x10, 255, 254] SlotState.reset ∧ halfAt [0x10, 0, 0] 1 = 0 ∧
    halfAt [0x10, 255, 255] 1 = 65535 ∧ halfAt [0x10, 255, 254] 1 ≠ 65535 ∧ halfAt [0x10, 255, 254] 1 ≠ 0 ∧
    ManagementUnit.reset.identity = none ∧
    (let s := { asked .setNodeIdentity [0x10, 0, 5] SlotState.reset with
       management := { asking .setNodeIdentity [0x10, 0, 5] with identity := some 5 } }
     findRequest s .line .setNodeIdentity = some (demoRequest .setNodeIdentity [0x10, 0, 5]) ∧
     s.management.identity ≠ none) :=
  ⟨waits .., waits .., waits .., by decide +kernel⟩

theorem witness_WindowsOpenAndCloseOverARange :
    (∀ c, waiting .openWindow [0x20, 3, 125] (demoSlot c .baseline) ∧
      waiting .closeWindow [0x21, 3, 125, 0, 1] (demoSlot c .baseline) ∧
      (asked .openWindow [0x20, 3, 125] (demoSlot c .baseline)).slots[(3 : Slot)] = demoSlot c .baseline) ∧
    waiting .openWindow [0x20, 3, 126] SlotState.reset ∧ waiting .closeWindow [0x21, 129, 0, 0, 1] SlotState.reset ∧
    ((byteAt [0x20, 3, 125] 1).toNat + (byteAt [0x20, 3, 125] 2).toNat ≤ 128 ∧
      128 < (byteAt [0x20, 3, 126] 1).toNat + (byteAt [0x20, 3, 126] 2).toNat ∧
      128 < (byteAt [0x21, 129, 0, 0, 1] 1).toNat + (byteAt [0x21, 129, 0, 0, 1] 2).toNat) :=
  ⟨fun _ => ⟨waits .., waits .., demo_slot ..⟩, waits .., waits .., by decide⟩

/-- Slots 127 and 128 at their clauses, in WINDOW and out of it. -/
theorem witness_RolesAndEntriesAreEdited :
    waiting .setSlotRoles [0x30, 128, 1, 2, 0, 0, 0] SlotState.reset ∧
    waiting .setSlotRoles [0x30, 3, 1, 2, 0, 0, 0] (demoSlot .idle .none) ∧
    waiting .setSlotRoles [0x30, 3, 2, 2, 0, 0, 0] (demoSlot .window .none) ∧
    waiting .setSlotRoles [0x30, 3, 1, 0, 0, 0, 0] (demoSlot .window .baseline) ∧
    waiting .setSlotRoles [0x30, 3, 1, 0, 0, 0, 0] (demoSlot .window .none) ∧
    waiting .loadMapEntry [0x31, 3, 1, 1, 2, 7, 0, 1] (demoSlot .window .none) ∧
    waiting .loadMapEntry [0x31, 3, 1, 1, 2, 8, 0, 1] (demoSlot .window .none) ∧
    waiting .loadMapEntry [0x31, 3, 0, 0, 1, 7, 0, 0] { SlotState.reset with context := (demoSlot .window .none).context } ∧
    waiting .loadMapEntry [0x31, 128] SlotState.reset ∧ waiting .loadMapEntry [0x31, 3] SlotState.reset ∧
    ((asked .loadMapEntry [] (demoSlot .window .none)).slots[(3 : Slot)] = demoSlot .window .none ∧
      (demoSlot .window .none).context.state = .window ∧ (demoSlot .window .none).map.txRole = .originate ∧
      (3 : Slot).val = (byteAt [0x30, 3] 1).toNat) :=
  ⟨waits .., waits .., waits .., waits .., waits .., waits .., waits .., waits .., waits .., waits ..,
    demo_slot .., by decide⟩

/-- A pool with one free entry. -/
theorem witness_RoutesAreFreedAndAllocated :
    waiting .clearMapEntry [0x32, 3] (demoSlot .window .none) ∧ waiting .clearMapEntry [0x32, 3] (demoSlot .idle .none) ∧
    waiting .clearMapEntry [0x32, 128] SlotState.reset ∧ waiting .linkRoute [0x33, 128, 0] SlotState.reset ∧
    waiting .linkRoute [0x33, 3, 2, 0, 1, 2, 255, 254, 0] (demoSlot .window .none) ∧
    waiting .linkRoute [0x33, 3, 1, 0, 0, 0] (demoSlot .window .none) ∧
    waiting .linkRoute [0x33, 3, 7] (demoSlot .window .none) ∧ waiting .linkRoute [0x33, 3, 0] (demoSlot .idle .none) ∧
    (let s := { asked .linkRoute [0x33, 3, 2, 0, 1, 2, 255, 254, 0] (demoSlot .window .none) with freeHops := [4] }
     findRequest s .line .linkRoute = some (demoRequest .linkRoute [0x33, 3, 2, 0, 1, 2, 255, 254, 0]) ∧
     s.freeHops.length < 2) :=
  ⟨waits .., waits .., waits .., waits .., waits .., waits .., waits .., waits .., by decide +kernel⟩

theorem witness_SettingsAreStoredWithinTheirRanges :
    waiting .setProfile [0x40, 7] SlotState.reset ∧ waiting .setProfile [0x40, 8] SlotState.reset ∧
    waiting .setProbing [0x41, 0, 1] SlotState.reset ∧
    waiting .setReporting ([0x42, 1, 0, 5, 15, 14] ++ List.replicate 13 3) SlotState.reset ∧
    waiting .setReporting ([0x42, 1, 0, 5, 15, 14] ++ List.replicate 13 4) SlotState.reset ∧
    (∀ c : Fin 13, byteAt ([0x42, 1, 0, 5, 15, 14] ++ List.replicate 13 3) (6 + c.val) = 3) :=
  ⟨waits .., waits .., waits .., waits .., waits .., by decide⟩

theorem witness_ReverifyStartsTheCheckAfresh :
    waiting .reverify [0x50, 128] SlotState.reset ∧
    (∀ c, waiting .reverify [0x50, 3] (demoSlot c .none) ∧
      (asked .reverify [0x50, 3] (demoSlot c .none)).slots[(3 : Slot)] = demoSlot c .none) :=
  ⟨waits .., fun _ => ⟨waits .., demo_slot ..⟩⟩

/-- A slot with every record of the queries present. -/
def fullSlot : SlotState :=
  { demoSlot .verified .baseline with
    map := { (demoSlot .verified .baseline).map with
      route := [⟨0, 5, .always⟩], workingBaseline := some 5, protectBaseline := some 6 }
    tag := { TagReceiver.reset with
      held := some demoTag, lastFault := some .slip, lastValid := some { bytes := List.replicate 32 0, stamp := 0 } }
    tx := { TagTransmitter.reset with lastEmitted := some { source := .idle, bytes := List.replicate 32 0 } }
    probe := { SlotProbe.reset with average := some 7, sampleCount := 1 } }

theorem witness_QueriesAnswerTheStateOfASlot :
    waiting .queryTrail [0x60, 3] fullSlot ∧ waiting .queryTrail [0x60, 128] fullSlot ∧
    waiting .queryTag [0x61, 3, 4] fullSlot ∧ waiting .queryRoute [0x62, 3] fullSlot ∧
    waiting .queryRoute [0x62, 128] fullSlot ∧
    (∀ form : Byte, waiting .queryTag [0x61, 3, form] fullSlot ∧ waiting .queryTag [0x61, 3, form] SlotState.reset) ∧
    fullSlot.tag.held = some demoTag ∧ demoTag.route.length ≤ 6 :=
  ⟨waits .., waits .., waits .., waits .., waits .., fun _ => ⟨waits .., waits ..⟩, rfl, by decide⟩

/-- A request with blocks still to be reached. -/
def partly (c : Command) (todo : List Block) : Request := { demoRequest c [0x70, 255, 1] with todo := todo }

theorem witness_StatusIsReadBlockByBlock :
    let ready := fun (block : Block) (todo : List Block) =>
      let s := { State.reset with management := { ManagementUnit.reset with requests := [partly .readStatus todo] } }
      s.resetHeld = false ∧ s.management.requests = [] ++ partly .readStatus todo :: [] ∧ block ∈ todo ∧ todo.Nodup ∧
      (partly .readStatus todo).data = []
    (∀ b ∈ blocksOf .readStatus [], ready b (blocksOf .readStatus [])) ∧ ready .timebase [.timebase] := by
  decide +kernel

theorem witness_DetectedItemsAreCleared :
    let ready := fun (block : Block) (todo : List Block) =>
      let s := { State.reset with management := { ManagementUnit.reset with requests := [partly .clearDetected todo] } }
      s.resetHeld = false ∧ s.management.requests = [] ++ partly .clearDetected todo :: [] ∧
      (block ∈ todo ∨ todo = []) ∧ todo.Nodup
    ready .reportUnit [.reportUnit, .managementUnit, .probeEngine] ∧
    ready .managementUnit [.managementUnit, .probeEngine] ∧ ready .probeEngine [.probeEngine] ∧
    ready .reportUnit [] := by decide +kernel

/-! ## Witnesses: matching, arithmetic and invariants -/

theorem witness_MatchingComparesIdentitiesAndRoutes :
    (matchResult { demoEntry .none with mode := .masked ⟨9, 0, 0⟩ ⟨0xFFFF, 0, 0⟩ } ⟨9, 1, 2⟩ = .matched ∧
      matchResult { demoEntry .none with mode := .masked ⟨8, 0, 0⟩ ⟨0x0001, 0, 0⟩ } ⟨9, 1, 2⟩ = .noMatch) ∧
    (matchResult { demoEntry .none with mode := .listed ⟨9, 1, 2⟩ (some ⟨9, 1, 2⟩) } ⟨9, 1, 2⟩ = .matchedA ∧
      matchResult { demoEntry .none with mode := .listed ⟨9, 1, 3⟩ (some ⟨9, 1, 2⟩) } ⟨9, 1, 2⟩ = .matchedB ∧
      matchResult { demoEntry .none with mode := .listed ⟨9, 1, 3⟩ none } ⟨9, 1, 2⟩ = .noMatch) := by decide

theorem witness_DelaysRoundHalvesToEven :
    (1 ≤ 3 ∧ 2 * (4 : Int).natAbs ≤ 2 ^ 3) ∧ (58 : Int) = 16 * ((2560 : Nat) : Int) - (40902 : Nat) := by decide

theorem witness_ExpectationsChangeOnlyInWindow :
    Instr.refclkTick ≠ .powerOn ∧ Instr.refclkTick ≠ .resetnAsserted ∧
    exec .refclkTick State.reset = .next (after State.reset (exec .refclkTick State.reset)) ∧
    State.reset.slots[(3 : Slot)].context.state ≠ .window := by
  refine ⟨by decide, by decide, rfl, by decide +kernel⟩

/-- What every slot of a demo state is. -/
theorem demo_each (P : SlotState → Prop) (sl : SlotState) (h3 : P sl) (hr : P SlotState.reset) (i : Slot) :
    P (demo sl).slots[i] := by
  have hz : State.reset.slots[i] = SlotState.reset := by simp [State.reset]
  unfold demo
  rw [State.modSlot_slot, hz]
  split <;> assumption

/-- A queued finding whose slot is pending. -/
theorem witness_EveryStepKeepsTheReportUnitInOrder :
    let s := { demo { demoSlot .failed .none with context := { Context.reset with findingPending := true } } with
      report := { ReportUnit.reset with queue := [{ finding := found none, cls := .info, superseded := 0 }] } }
    AlertFollows s ∧ OneRecordPerSlot s ∧ PendingIsQueued s ∧ step s = .next s := by
  refine ⟨rfl, by unfold OneRecordPerSlot; decide +kernel, ?_, rfl⟩
  unfold PendingIsQueued; decide +kernel

/-- A slot being checked with a hop of its route allocated. -/
theorem witness_EveryStepKeepsTheTrailMapInOrder :
    let s := { demo { demoSlot .soaking .baseline with
        map := { (demoSlot .soaking .baseline).map with route := [⟨0, 5, .always⟩] } } with
      freeHops := (List.finRange 256).drop 1 }
    HopsConserved s ∧ ChecksStandOnEntries s ∧ step s = .next s := by
  refine ⟨⟨by decide +kernel, ?_⟩, ?_, rfl⟩
  · exact demo_each (fun x => x.map.route.length ≤ 6) _ (by decide) (by decide)
  · exact demo_each (fun x => (beingChecked x.context.state = true →
        x.map.rxRole = .terminate ∧ x.map.entry.isSome = true) ∧
      (measuresDelay x.map = true → x.map.txRole = .originate)) _ (by decide) (by decide)

/-- A slot with the largest average and the largest baselines. -/
def largest : SlotState :=
  { demoSlot .verified .baseline with
    map := { (demoSlot .verified .baseline).map with
      workingBaseline := some 16777200, protectBaseline := some 16777200 }
    probe := { SlotProbe.reset with average := some 16777200, sampleCount := 1 }
    inFlight := { InFlight.reset with baselines := [(.working, 16777200)] } }

/-- What DelaysInRange asks of one slot. -/
def delaysFit (x : SlotState) : Prop :=
  InAverageRange x.probe.average ∧ (x.probe.average.isSome = true ↔ 0 < x.probe.sampleCount) ∧
  InAverageRange x.map.workingBaseline ∧ InAverageRange x.map.protectBaseline ∧
  ∀ c ∈ x.inFlight.baselines, c.2 ≤ 16777200

theorem largest_fits : delaysFit largest := by simp [delaysFit, largest, InAverageRange, demoSlot]

theorem reset_fits : delaysFit SlotState.reset := by
  simp [delaysFit, InAverageRange, SlotState.reset, SlotMap.reset, SlotProbe.reset, InFlight.reset]

/-- That slot and an entry in the probe table. -/
theorem witness_EveryStepKeepsTheProbeEngineInOrder :
    DelaysInRange (probing 0 3 none largest) ∧ OneEntryPerSlot (probing 0 3 none largest) ∧
    step (probing 0 3 none largest) = .next (probing 0 3 none largest) :=
  ⟨fun i => demo_each delaysFit largest largest_fits reset_fits i, by unfold OneEntryPerSlot; decide +kernel, rfl⟩

/-- A receiver at its second miss, and a slot at its last miss of a tag with a run of 2. -/
theorem witness_EveryStepKeepsTheReceiversInRange :
    let s := { demo { SlotState.reset with tag := { TagReceiver.reset with runLength := 2, tagLossCount := 8 } } with
      receiver := ⟨lockedAt 2, .reset⟩ }
    ReceiversInRange s ∧ step s = .next s := by
  refine ⟨⟨fun side => ?_, fun i => ?_⟩, rfl⟩
  · cases side <;> decide
  · exact demo_each (fun x => x.tag.runLength ≤ 2 ∧ x.tag.tagLossCount ≤ 8) _ (by decide) (by decide) i

/-- Line-out sends a reply while a request of the drop side waits for its own. -/
theorem witness_EveryStepKeepsTheBuffersWithTheArbiters :
    let s := sendingState 1 { ManagementUnit.reset with
      forward := ⟨.free, .sending⟩, reply := ⟨.sending false, .reserved⟩
      arbiter := ⟨some { source := .reply, rest := [9] }, some { source := .forward, rest := [8] }⟩
      requests := [{ demoRequest .restart [0x7F] with side := .drop }] }
    BuffersFollowArbiters s ∧ step s = .next s := by
  refine ⟨fun side => ?_, rfl⟩
  cases side <;> simp [sendingState, ManagementUnit.reset, demoRequest]

end Sys2Proof.Tests
end

section
/-! PROOFS. Reception: the receivers and the tag receivers stay within their ranges (O59). First what leaves reception
alone, one lemma per operation; then the operations that act on it. -/

namespace Sys2Proof.Machine

/-! ## What leaves reception alone -/

/-- Neither a receiver nor the tag receiver of a slot differs. -/
def SameReception (s t : State) : Prop := t.receiver = s.receiver ∧ ∀ i : Slot, t.slots[i].tag = s.slots[i].tag

theorem SameReception.refl (s : State) : SameReception s s := ⟨rfl, fun _ => rfl⟩

theorem SameReception.trans {s t u : State} (h : SameReception s t) (g : SameReception t u) : SameReception s u :=
  ⟨g.1.trans h.1, fun i => (g.2 i).trans (h.2 i)⟩

/-- Reception lies in the receivers and the slots alone. -/
theorem SameReception.congr {s t u : State} (h : SameReception s t) (hr : u.receiver = t.receiver)
    (hs : u.slots = t.slots) : SameReception s u :=
  ⟨hr.trans h.1, fun i => by rw [hs]; exact h.2 i⟩

/-- One slot is replaced by a state with the same tag receiver. -/
theorem SameReception.of_set {s t : State} {i : Slot} {x : SlotState} (hr : t.receiver = s.receiver)
    (hs : t.slots = s.slots.set i x) (h : x.tag = s.slots[i].tag) : SameReception s t := by
  refine ⟨hr, fun j => ?_⟩
  rw [hs, show (s.slots.set i x)[j] = _ from State.modSlot_slot s i j fun _ => x]
  split
  · next hj => rw [hj]; exact h
  · rfl

/-- Every slot is replaced by a state with the same tag receiver. -/
theorem SameReception.of_vectorOf {s t : State} {g : Slot → SlotState} (hr : t.receiver = s.receiver)
    (hs : t.slots = vectorOf g) (h : ∀ i : Slot, (g i).tag = s.slots[i].tag) : SameReception s t :=
  ⟨hr, fun i => by rw [hs, vectorOf_get, h]⟩

/-- An effect that depends on a condition leaves reception alone when it does so where the condition holds. -/
theorem SameReception.when {s t : State} {p : Prop} [Decidable p] (h : SameReception s t) :
    SameReception s (if p then t else s) := by
  split
  · exact h
  · exact .refl s

theorem SameReception.unless {s t : State} {p : Prop} [Decidable p] (h : SameReception s t) :
    SameReception s (if p then s else t) := by
  split
  · exact .refl s
  · exact h

/-! ### Contexts -/

theorem takeReport_tag (inp : CheckInputs) (i : Slot) (r : CycleReport) (sl : SlotState) :
    (takeReport inp i r sl).tag = sl.tag := (takeReport_only ..).tag

theorem takeStreamLoss_tag (inp : CheckInputs) (i : Slot) (sl : SlotState) :
    (takeStreamLoss inp i sl).tag = sl.tag := (takeStreamLoss_only ..).tag

theorem enterFailed_tag (inp : CheckInputs) (i : Slot) (cause : Cause) (sl : SlotState) :
    (enterFailed inp i cause sl).tag = sl.tag := (enterFailed_only ..).tag

theorem decideSoakEnd_tag (inp : CheckInputs) (i : Slot) (sl : SlotState) :
    (decideSoakEnd inp i sl).tag = sl.tag := by
  unfold decideSoakEnd
  dsimp only
  split
  · rfl
  · split
    · exact enterFailed_tag ..
    · split
      · rfl
      · split
        · exact enterFailed_tag ..
        · rfl
      · rfl

theorem takeBoundary_tag (inp : CheckInputs) (i : Slot) (sl : SlotState) :
    (takeBoundary inp i sl).tag = sl.tag := by
  unfold takeBoundary
  split
  case h_1 =>
    unfold boundaryInSettling
    dsimp only
    split
    · exact enterFailed_tag ..
    · rfl
  case h_2 =>
    unfold boundaryInSoaking
    dsimp only
    split
    · exact decideSoakEnd_tag ..
    · rfl
  case h_3 =>
    unfold boundaryInVerified
    dsimp only
    split
    · split
      · exact enterFailed_tag ..
      · rfl
    · rfl
  all_goals rfl

theorem strikeTest_tag (inp : CheckInputs) (i : Slot) (shift : Int) (sl : SlotState) :
    (strikeTest inp i shift sl).tag = sl.tag := by
  simp only [strikeTest]
  generalize (if shiftFails shift (slotProfile inp sl.map).tolerance then sl.context.strikes + 1 else 0) = strikes
  split
  · exact enterFailed_tag ..
  · rfl

theorem takeSample_tag (inp : CheckInputs) (i : Slot) (sl : SlotState) : (takeSample inp i sl).tag = sl.tag := by
  unfold takeSample
  split
  case h_1 =>
    split
    · rfl
    · exact strikeTest_tag ..
    · unfold learnBaseline
      split <;> rfl
  all_goals rfl

theorem openSlot_tag (inp : CheckInputs) (sl : SlotState) : (openSlot inp sl).tag = sl.tag := by
  unfold openSlot
  split <;> rfl

theorem closeSlot_tag (epoch : Half) (sl : SlotState) : (closeSlot epoch sl).tag = sl.tag := by
  unfold closeSlot
  dsimp only
  split
  · split <;> rfl
  · rfl

theorem restartSlot_tag (stillQueued : Bool) (sl : SlotState) : (restartSlot stillQueued sl).tag = sl.tag := by
  unfold restartSlot
  dsimp only
  split <;> rfl

/-! ### The probe engine -/

theorem rotationStep_sameReception (s : State) : SameReception s (rotationStep s) := by
  unfold rotationStep
  split
  · exact .refl s
  · split
    · exact .refl s
    · exact .of_set rfl rfl rfl

theorem countdown_sameReception (s : State) : SameReception s (countdown s) :=
  .of_vectorOf rfl rfl fun _ => rfl

theorem countInterval_sameReception (s : State) : SameReception s (countInterval s) := by
  unfold countInterval
  split
  · exact rotationStep_sameReception { s with probe := _ }
  · exact .refl s

theorem probeBoundary_sameReception (s : State) : SameReception s (probeBoundary s) := by
  unfold probeBoundary
  exact (countdown_sameReception { s with probe := _ }).trans (countInterval_sameReception _)

theorem engineBoundary_sameReception (s : State) : SameReception s (engineBoundary s) :=
  .when (probeBoundary_sameReception s)

theorem matchedEcho_sameReception (s : State) (i : Slot) (launch : Stamp) (h : EchoHandoff) :
    SameReception s (matchedEcho s i launch h) := by
  unfold matchedEcho
  dsimp only
  split
  · exact .refl s
  · split
    · exact .of_set rfl rfl rfl
    · exact .refl s

theorem unmatchedEcho_sameReception (s : State) (i : Slot) (h : EchoHandoff) :
    SameReception s (unmatchedEcho s i h) :=
  .unless (.refl s)

theorem takeEcho_sameReception (s : State) (i : Slot) (h : EchoHandoff) : SameReception s (takeEcho s i h) := by
  unfold takeEcho
  dsimp only
  split
  · exact .refl s
  · split
    · exact (matchedEcho_sameReception ..).trans (.of_set rfl rfl rfl)
    · exact (unmatchedEcho_sameReception ..).trans (.of_set rfl rfl rfl)

theorem takeHandoff_sameReception (s : State) (i : Slot) (h : EchoHandoff) : SameReception s (takeHandoff s i h) :=
  .when ((takeEcho_sameReception s i h).trans (.of_set rfl rfl rfl))

theorem withdrawSlot_sameReception (s : State) (i : Slot) : SameReception s (withdrawSlot s i) :=
  .of_set rfl rfl rfl

/-! ### Local period boundaries -/

theorem contextBoundary_sameReception (s : State) (i : Slot) : SameReception s (contextBoundary s i) :=
  .when (.of_set rfl rfl (takeBoundary_tag ..))

theorem boundaryAt_sameReception (target : BoundaryAt) (s : State) : SameReception s (boundaryAt target s) := by
  cases target with
  | timebase => exact .unless (.of_vectorOf rfl rfl fun _ => rfl)
  | context i => exact contextBoundary_sameReception s i
  | probeEngine => exact engineBoundary_sameReception s

/-! ### The report unit and the management channel -/

theorem takeFinding_sameReception (s : State) (f : Finding) : SameReception s (takeFinding s f) := by
  unfold takeFinding setPending
  dsimp only
  split
  · exact .of_set rfl rfl rfl
  · exact .refl s

theorem startNotice_sameReception (s : State) (skip : Nat) : SameReception s (startNotice s skip) := by
  unfold startNotice
  split
  · exact .refl s
  · split
    · exact .of_set rfl rfl rfl
    · exact .refl s

theorem startBuffered_sameReception (s : State) (output : Side) (skip : Nat) :
    SameReception s (startBuffered s output skip) := by
  unfold startBuffered
  split <;> exact .refl s

theorem endSending_sameReception (s : State) (output : Side) : SameReception s (endSending s output) := by
  unfold endSending
  split
  · exact .refl s
  · dsimp only
    split
    · exact .refl s
    · exact .refl s
    · split <;> exact .refl s

theorem restartNow_sameReception (s : State) (side : Side) (sent : Nat) :
    SameReception s (restartNow s side sent) :=
  .of_vectorOf rfl rfl fun _ => rfl

theorem takeEffect_sameReception (s : State) (side : Side) (sent : Nat) :
    SameReception s (takeEffect s side sent) := by
  unfold takeEffect
  split
  · exact restartNow_sameReception ..
  · split
    · exact .refl s
    · split
      · exact restartNow_sameReception (placeLast s side _) side sent
      · exact .refl s

/-! ### Requests -/

/-- A request leaves reception alone when its answer does. -/
theorem serve_sameReception {answer : State → List Byte → Answer}
    (h : ∀ s p, SameReception s (answer s p).state) (s : State) (side : Side) (c : Command) :
    SameReception s (serve s side c answer) := by
  cases hf : findRequest s side c with
  | none => rw [serve_none hf]; exact .refl s
  | some r => rw [serve_state hf]; exact (h s r.payload).congr rfl rfl

theorem answerSetNodeIdentity_sameReception (s : State) (p : List Byte) :
    SameReception s (answerSetNodeIdentity s p).state := by
  unfold answerSetNodeIdentity
  repeat' split
  all_goals exact .refl s

theorem answerOpenWindow_sameReception (s : State) (p : List Byte) :
    SameReception s (answerOpenWindow s p).state := by
  unfold answerOpenWindow
  dsimp only
  split
  · exact .refl s
  · refine .of_vectorOf rfl rfl fun i => ?_
    dsimp only
    split
    · exact openSlot_tag ..
    · rfl

theorem answerCloseWindow_sameReception (s : State) (p : List Byte) :
    SameReception s (answerCloseWindow s p).state := by
  unfold answerCloseWindow
  dsimp only
  split
  · exact .refl s
  · refine .of_vectorOf rfl rfl fun i => ?_
    dsimp only
    split
    · exact closeSlot_tag ..
    · rfl

theorem answerSetSlotRoles_sameReception (s : State) (p : List Byte) :
    SameReception s (answerSetSlotRoles s p).state := by
  unfold answerSetSlotRoles
  repeat' split
  case isFalse => exact .of_set rfl rfl rfl
  all_goals exact .refl s

theorem answerLoadMapEntry_sameReception (s : State) (p : List Byte) :
    SameReception s (answerLoadMapEntry s p).state := by
  unfold answerLoadMapEntry
  repeat' split
  case isFalse => exact .of_set rfl rfl rfl
  all_goals exact .refl s

theorem answerClearMapEntry_sameReception (s : State) (p : List Byte) :
    SameReception s (answerClearMapEntry s p).state := by
  unfold answerClearMapEntry
  repeat' split
  case isFalse => exact .of_set rfl rfl rfl
  all_goals exact .refl s

theorem answerLinkRoute_sameReception (s : State) (p : List Byte) :
    SameReception s (answerLinkRoute s p).state := by
  unfold answerLinkRoute
  dsimp only
  repeat' split
  case isFalse => exact .of_set rfl rfl rfl
  all_goals exact .refl s

theorem answerSetProfile_sameReception (s : State) (p : List Byte) :
    SameReception s (answerSetProfile s p).state := by
  unfold answerSetProfile
  split <;> exact .refl s

theorem answerSetReporting_sameReception (s : State) (p : List Byte) :
    SameReception s (answerSetReporting s p).state := by
  unfold answerSetReporting
  split <;> exact .refl s

theorem answerReverify_sameReception (s : State) (p : List Byte) :
    SameReception s (answerReverify s p).state := by
  unfold answerReverify
  repeat' split
  case isTrue => exact .of_set rfl rfl rfl
  all_goals exact .refl s

theorem answerQueryTrail_sameReception (s : State) (p : List Byte) :
    SameReception s (answerQueryTrail s p).state := by
  unfold answerQueryTrail
  split <;> exact .refl s

theorem answerQueryTag_sameReception (s : State) (p : List Byte) :
    SameReception s (answerQueryTag s p).state := by
  unfold answerQueryTag
  repeat' split
  all_goals exact .refl s

theorem answerQueryRoute_sameReception (s : State) (p : List Byte) :
    SameReception s (answerQueryRoute s p).state := by
  unfold answerQueryRoute
  split <;> exact .refl s

theorem serveStatus_sameReception (s : State) (side : Side) (block : Block) :
    SameReception s (serveStatus s side block) := by
  unfold serveStatus
  split
  · exact .refl s
  · dsimp only
    split <;> exact .refl s

theorem clearItems_sameReception (s : State) (p : List Byte) (block : Block) :
    SameReception s (clearItems s p block) := by
  cases block <;> exact .refl s

theorem serveClear_sameReception (s : State) (side : Side) (block : Block) :
    SameReception s (serveClear s side block) := by
  unfold serveClear
  split
  · exact .refl s
  · next r _ =>
    have cleared : SameReception s (if r.todo.contains block then clearItems s r.payload block else s) :=
      .when (clearItems_sameReception ..)
    dsimp only
    split <;> exact cleared.congr rfl rfl

/-! ### Outputs -/

theorem startLineFrame_sameReception (s : State) (timing : Timing) (sent : Nat) (f : OutFrame) :
    SameReception s (startLineFrame s timing sent f) := by
  unfold startLineFrame
  dsimp only
  split
  · exact .refl s
  · split
    · exact .refl s
    · exact .of_vectorOf rfl rfl fun _ => rfl

theorem startLocalFrame_sameReception (s : State) (output : Side) : SameReception s (startLocalFrame s output) := by
  cases output with
  | line => exact startLineFrame_sameReception ..
  | drop => exact .refl s

theorem startCycle_sameReception (s : State) : SameReception s (startCycle s) := by
  have latched : SameReception s (latchCycle s) := .of_vectorOf rfl rfl fun _ => rfl
  unfold startCycle
  split
  · exact .refl s
  · split
    · exact latched.trans (.of_vectorOf rfl rfl fun _ => rfl)
    · exact .refl s

theorem cutCycle_sameReception (s : State) (sent : Nat) : SameReception s (cutCycle s sent) :=
  .of_vectorOf rfl rfl fun _ => rfl

theorem leaveFollow_sameReception (s : State) (output : Side) (sent : Nat) :
    SameReception s (leaveFollow s output sent) := by
  rw [leaveFollow_rest]; exact .refl s

theorem completeCycle_sameReception (s : State) : SameReception s (completeCycle s) :=
  .of_vectorOf rfl rfl fun _ => rfl

theorem deliverDrop_sameReception (s : State) (p : Phase) (f : Frame) (sent : Nat) :
    SameReception s (deliverDrop s p f sent) := by
  unfold deliverDrop
  dsimp only
  refine SameReception.trans ?_ (startLineFrame_sameReception ..)
  split
  · exact .refl s
  · exact cutCycle_sameReception { s with management := _ } sent

theorem loseDrop_sameReception (s : State) (sent : Nat) : SameReception s (loseDrop s sent) := by
  unfold loseDrop
  dsimp only
  split
  · exact (cutCycle_sameReception { s with management := _ } sent).trans (leaveFollow_sameReception ..)
  · exact .refl s

end Sys2Proof.Machine
end

section
/-! PROOFS. What acts on reception, and the step invariant (O59). -/

namespace Sys2Proof.Machine

/-! ## The ranges -/

/-- A receiver within its range: at most two misses, and in LOCKED a phase and a next frame start (R8). -/
def Receiver.InRange (r : Receiver) : Prop :=
  r.missCount ≤ 2 ∧ (r.align = .locked → r.phase ≠ none ∧ r.nextStart ≠ none)

/-- A tag receiver within its range: a run of at most two and at most eight lost tags (R26, R27). -/
def TagReceiver.InRange (t : TagReceiver) : Prop := t.runLength ≤ 2 ∧ t.tagLossCount ≤ 8

theorem receiversInRange_iff (s : State) :
    ReceiversInRange s ↔ (∀ side, (s.receiver.get side).InRange) ∧ ∀ i : Slot, s.slots[i].tag.InRange := Iff.rfl

theorem SameReception.inRange {s t : State} (h : SameReception s t) (hs : ReceiversInRange s) :
    ReceiversInRange t := by
  rw [receiversInRange_iff] at *
  obtain ⟨hr, ht⟩ := h
  exact ⟨fun side => hr ▸ hs.1 side, fun i => ht i ▸ hs.2 i⟩

/-- One receiver replaced by one within its range. -/
theorem ReceiversInRange.setReceiver {s t : State} {r : Receiver} (hs : ReceiversInRange s) (side : Side)
    (hr : r.InRange) (htr : t.receiver = s.receiver.set side r) (hts : t.slots = s.slots) : ReceiversInRange t := by
  refine ⟨fun x => ?_, fun i => by rw [hts]; exact hs.2 i⟩
  rw [htr]
  rcases eq_or_ne x side with rfl | hx
  · rw [Sides.get_set_same]; exact hr
  · rw [Sides.get_set_other _ hx]; exact hs.1 x

/-- Every slot replaced by one whose tag receiver is within its range. -/
theorem ReceiversInRange.vectorOf {s t : State} {g : Slot → SlotState} (hs : ReceiversInRange s)
    (hr : t.receiver = s.receiver) (hts : t.slots = vectorOf g)
    (h : ∀ i : Slot, s.slots[i].tag.InRange → (g i).tag.InRange) : ReceiversInRange t := by
  refine ⟨fun side => by rw [hr]; exact hs.1 side, fun i => ?_⟩
  rw [hts, vectorOf_get]
  exact h i (hs.2 i)

/-! ## Alignment -/

theorem huntReceiver_inRange {r : Receiver} (hr : r.InRange) (ha : r.align = .hunt) (input : List Byte) :
    (huntReceiver r input).InRange := by
  unfold huntReceiver
  split
  · exact ⟨hr.1, fun h => by cases h⟩
  · exact ⟨hr.1, fun h => by simp [ha] at h⟩

theorem confirmReceiver_inRange {r : Receiver} (hr : r.InRange) (start : Nat) (p : Phase) (word : Vector Byte 4)
    (b : Byte) : (confirmReceiver r start p word b).InRange := by
  unfold confirmReceiver
  split
  · exact ⟨Nat.zero_le _, fun _ => ⟨by simp, by simp⟩⟩
  · exact ⟨hr.1, fun h => by cases h⟩

/-- A frame judged as a miss is not the third in a row (R8). -/
theorem missCount_of_judgeLocked_miss {r : Receiver} {word : Vector Byte 4} {b : Byte} {p : Phase}
    (h : judgeLocked r word b = .miss p) : r.missCount + 1 ≤ 2 := by
  unfold judgeLocked at h
  dsimp only at h
  split at h
  · split at h
    · omega
    · cases h
  · split at h <;> cases h

theorem receiverAfter_inRange (r : Receiver) (word : Vector Byte 4) (b : Byte) :
    (receiverAfter r (judgeLocked r word b)).InRange := by
  cases h : judgeLocked r word b with
  | good p => exact ⟨Nat.zero_le _, fun _ => ⟨by simp [receiverAfter], by simp [receiverAfter]⟩⟩
  | slip p => exact ⟨Nat.zero_le _, fun _ => ⟨by simp [receiverAfter], by simp [receiverAfter]⟩⟩
  | miss p =>
    exact ⟨missCount_of_judgeLocked_miss h, fun _ => ⟨by simp [receiverAfter], by simp [receiverAfter]⟩⟩
  | loss p => exact ⟨Nat.zero_le _, fun h => by cases h⟩

/-! ## Tag receivers -/

theorem TagReceiver.reset_inRange : TagReceiver.reset.InRange := ⟨Nat.zero_le _, Nat.zero_le _⟩

theorem runAfterValid_le {t : TagReceiver} (ht : t.InRange) (new : HeldTag) : runAfterValid t new ≤ 2 := by
  unfold runAfterValid
  split
  · split
    · exact satInc_le ht.1
    · decide
  · decide

theorem afterJudgement_inRange {t : TagReceiver} (ht : t.InRange) (start : Option Stamp) :
    (afterJudgement t start).InRange := by
  unfold afterJudgement
  split
  · exact ⟨runAfterValid_le ht _, Nat.zero_le _⟩
  · refine ⟨?_, satInc_le ht.2⟩
    simp only [afterInvalid]
    split
    · exact Nat.zero_le _
    · exact ht.1

theorem tagCycleEnd_inRange {sl : SlotState} (ht : sl.tag.InRange) (start : Option Stamp) :
    (tagCycleEnd start sl).tag.InRange := afterJudgement_inRange ht start

theorem deliverSlot_inRange {sl : SlotState} (ht : sl.tag.InRange) (slipped : Bool) (p : Phase) (start : Option Stamp)
    (b : SlotBytes) : (deliverSlot slipped p start b sl).tag.InRange := by
  have taken : (takeOverhead (if slipped then tagSlip sl.tag else sl.tag) p b.tag b.condition
      (parityMismatches sl.parityMemory b.parity)).InRange := by
    cases slipped <;> exact ht
  unfold deliverSlot
  dsimp only
  split
  · exact tagCycleEnd_inRange taken start
  · exact taken

/-! ## Frames in LOCKED -/

theorem deliverLine_inRange {s : State} (hs : ReceiversInRange s) (j : Judgement) (p : Phase) (f : Frame) (sent : Nat) :
    ReceiversInRange (deliverLine s j p f sent) :=
  hs.vectorOf rfl rfl fun _ ht => deliverSlot_inRange ht ..

theorem loseLine_inRange {s : State} (hs : ReceiversInRange s) (sent : Nat) : ReceiversInRange (loseLine s sent) := by
  refine (leaveFollow_sameReception _ .drop sent).inRange (hs.vectorOf rfl rfl fun _ _ => ?_)
  exact ⟨Nat.zero_le _, Nat.zero_le _⟩

theorem lineFrame_inRange {s : State} (hs : ReceiversInRange s) (f : Frame) (sent : Nat) :
    ReceiversInRange (lineFrame s f sent) := by
  have judged : ReceiversInRange { s with
      receiver := s.receiver.set .line (receiverAfter s.receiver.line (judgeLocked s.receiver.line f.word f.phase)) } :=
    hs.setReceiver .line (receiverAfter_inRange ..) rfl rfl
  unfold lineFrame
  dsimp only
  split
  · exact deliverLine_inRange judged ..
  · exact deliverLine_inRange judged ..
  · exact deliverLine_inRange judged ..
  · exact loseLine_inRange judged ..

theorem dropFrame_inRange {s : State} (hs : ReceiversInRange s) (f : Frame) (sent : Nat) :
    ReceiversInRange (dropFrame s f sent) := by
  have judged : ReceiversInRange { s with
      receiver := s.receiver.set .drop (receiverAfter s.receiver.drop (judgeLocked s.receiver.drop f.word f.phase)) } :=
    hs.setReceiver .drop (receiverAfter_inRange ..) rfl rfl
  unfold dropFrame
  dsimp only
  split
  · exact (deliverDrop_sameReception ..).inRange judged
  · exact (deliverDrop_sameReception ..).inRange judged
  · exact (deliverDrop_sameReception ..).inRange judged
  · exact (loseDrop_sameReception ..).inRange judged

/-! ## Steps -/

/-- A step of the part keeps the ranges when its effect does. -/
theorem inRange_of_act {s t : State} {f : State → State} (h : act s f = .next t) (hs : ReceiversInRange s)
    (hf : ReceiversInRange (f s)) : ReceiversInRange t := by
  rcases act_cases h with ⟨_, rfl⟩ | ⟨_, rfl⟩
  · exact hs
  · exact hf

/-- A step of the part keeps the ranges when its effect leaves reception alone. -/
theorem inRange_of_same {s t : State} {f : State → State} (h : act s f = .next t) (hs : ReceiversInRange s)
    (hf : SameReception s (f s)) : ReceiversInRange t := inRange_of_act h hs (hf.inRange hs)

theorem State.reset_slot (i : Slot) : State.reset.slots[i] = SlotState.reset := by simp [State.reset]

/-- A state with the receivers and the slots of the reset state is within the ranges (R8, R31). -/
theorem receiversInRange_of_reset {t : State} (hr : t.receiver = State.reset.receiver)
    (hs : t.slots = State.reset.slots) : ReceiversInRange t := by
  refine ⟨fun side => ?_, fun i => ?_⟩
  · rw [hr]
    cases side <;> exact ⟨Nat.zero_le _, fun h => by cases h⟩
  · rw [hs, State.reset_slot]
    exact TagReceiver.reset_inRange

theorem startOutputs_sameReception (s : State) : SameReception s (startOutputs s) :=
  ((startLocalFrame_sameReception s .drop).trans (startLocalFrame_sameReception _ .line)).trans
    (startCycle_sameReception _)

theorem execHuntCandidate_inRange {s t : State} {side : Side} {input : List Byte} (hs : ReceiversInRange s)
    (h : execHuntCandidate side input s = .next t) : ReceiversInRange t := by
  refine inRange_of_act h hs ?_
  split
  · next ha => exact hs.setReceiver side (huntReceiver_inRange (hs.1 side) ha input) rfl rfl
  · exact hs

theorem execConfirmFrame_inRange {s t : State} {side : Side} {word : Vector Byte 4} {b : Byte}
    (hs : ReceiversInRange s) (h : execConfirmFrame side word b s = .next t) : ReceiversInRange t := by
  refine inRange_of_act h hs ?_
  split
  · exact hs.setReceiver side (confirmReceiver_inRange (hs.1 side) ..) rfl rfl
  · exact hs

theorem execLockedFrameJudged_inRange {s t : State} {side : Side} {a : Arrival} (hs : ReceiversInRange s)
    (h : execLockedFrameJudged side a s = .next t) : ReceiversInRange t := by
  refine inRange_of_act h hs ?_
  split
  · cases side with
    | line => exact lineFrame_inRange hs ..
    | drop => exact dropFrame_inRange hs ..
  · exact hs

theorem execTagReceiverRestart_inRange {s t : State} (hs : ReceiversInRange s)
    (h : execTagReceiverRestart s = .next t) : ReceiversInRange t := by
  refine inRange_of_act h hs ?_
  split
  · exact hs
  · exact hs.vectorOf rfl rfl fun _ _ => TagReceiver.reset_inRange

/-- Every command keeps the receivers and the tag receivers within their ranges. -/
theorem exec_keeps_receiversInRange {c : Instr} {s t : State} (hs : ReceiversInRange s) (h : exec c s = .next t) :
    ReceiversInRange t := by
  cases c
  all_goals dsimp only [exec] at h
  case powerOn =>
    cases h
    exact (startOutputs_sameReception _).inRange (receiversInRange_of_reset rfl rfl)
  case resetnAsserted =>
    cases h
    exact receiversInRange_of_reset rfl rfl
  case huntCandidate side input => exact execHuntCandidate_inRange hs h
  case confirmFrame side word phase => exact execConfirmFrame_inRange hs h
  case lockedFrameJudged side arrival => exact execLockedFrameJudged_inRange hs h
  case tagReceiverRestart => exact execTagReceiverRestart_inRange hs h
  case localPeriodBoundary target => exact inRange_of_same h hs (boundaryAt_sameReception ..)
  case settleLimitReached i => exact inRange_of_same h hs (.when (contextBoundary_sameReception ..))
  case soakEnd i => exact inRange_of_same h hs (.when (contextBoundary_sameReception ..))
  case defectHoldReached i => exact inRange_of_same h hs (.when (contextBoundary_sameReception ..))
  case intervalCountExpiry => exact inRange_of_same h hs (.when (engineBoundary_sameReception ..))
  case probeTimeout index => exact inRange_of_same h hs (.when (engineBoundary_sameReception ..))
  case cycleReport i =>
    refine inRange_of_same h hs ?_
    split
    · exact .refl s
    · exact .of_set rfl rfl (takeReport_tag ..)
  case streamLoss i =>
    exact inRange_of_same h hs (.unless (.of_set rfl rfl (takeStreamLoss_tag ..)))
  case transmitCycleStart => exact inRange_of_same h hs (startCycle_sameReception s)
  case transmitCycleComplete => exact inRange_of_same h hs (completeCycle_sameReception s)
  case localFrameStart output => exact inRange_of_same h hs (.when (startLocalFrame_sameReception ..))
  case echoReceipt i =>
    refine inRange_of_same h hs ?_
    split
    · exact .refl s
    · refine SameReception.trans ?_ (takeHandoff_sameReception ..)
      exact .of_set rfl rfl rfl
  case acceptedSample i => exact inRange_of_same h hs (.unless (.of_set rfl rfl (takeSample_tag ..)))
  case withdrawRequest i =>
    refine inRange_of_same h hs (.unless (SameReception.trans ?_ (withdrawSlot_sameReception ..)))
    exact .of_set rfl rfl rfl
  case filterResetRequest i =>
    refine inRange_of_same h hs ?_
    split
    · exact .refl s
    · exact .of_set rfl rfl rfl
  case baselineWrite i =>
    refine inRange_of_same h hs ?_
    split
    · exact .refl s
    · exact .of_set rfl rfl rfl
  case finding i =>
    refine inRange_of_same h hs ?_
    split
    · exact .refl s
    · refine SameReception.trans ?_ (takeFinding_sameReception ..)
      exact .of_set rfl rfl rfl
  case noticeStart skip => exact inRange_of_same h hs (startNotice_sameReception ..)
  case arbiterFrameStart output skip => exact inRange_of_same h hs (.when (startBuffered_sameReception ..))
  case arbiterFrameEnd output => exact inRange_of_same h hs (endSending_sameReception ..)
  case managementFrame side =>
    refine inRange_of_same h hs ?_
    split <;> exact .refl s
  case setNodeIdentity side =>
    exact inRange_of_same h hs (serve_sameReception answerSetNodeIdentity_sameReception ..)
  case readStatus side block => exact inRange_of_same h hs (serveStatus_sameReception ..)
  case openWindow side => exact inRange_of_same h hs (serve_sameReception answerOpenWindow_sameReception ..)
  case closeWindow side => exact inRange_of_same h hs (serve_sameReception answerCloseWindow_sameReception ..)
  case setSlotRoles side => exact inRange_of_same h hs (serve_sameReception answerSetSlotRoles_sameReception ..)
  case loadMapEntry side => exact inRange_of_same h hs (serve_sameReception answerLoadMapEntry_sameReception ..)
  case clearMapEntry side => exact inRange_of_same h hs (serve_sameReception answerClearMapEntry_sameReception ..)
  case linkRoute side => exact inRange_of_same h hs (serve_sameReception answerLinkRoute_sameReception ..)
  case setProfile side => exact inRange_of_same h hs (serve_sameReception answerSetProfile_sameReception ..)
  case setProbing side => exact inRange_of_same h hs (serve_sameReception (fun _ _ => .refl _) ..)
  case setReporting side => exact inRange_of_same h hs (serve_sameReception answerSetReporting_sameReception ..)
  case reverify side => exact inRange_of_same h hs (serve_sameReception answerReverify_sameReception ..)
  case queryTrail side => exact inRange_of_same h hs (serve_sameReception answerQueryTrail_sameReception ..)
  case queryTag side => exact inRange_of_same h hs (serve_sameReception answerQueryTag_sameReception ..)
  case queryRoute side => exact inRange_of_same h hs (serve_sameReception answerQueryRoute_sameReception ..)
  case clearDetected side block => exact inRange_of_same h hs (serveClear_sameReception ..)
  case restart side => exact inRange_of_same h hs (serve_sameReception (fun _ _ => .refl _) ..)
  case restartTakesEffect moment => exact inRange_of_same h hs (takeEffect_sameReception ..)
  case contextRestart i => exact inRange_of_same h hs (.unless (.of_set rfl rfl (restartSlot_tag ..)))
  case refclkTick => exact inRange_of_same h hs (.refl s)
  case lineTransmitterRestart => exact inRange_of_same h hs (.unless (.of_vectorOf rfl rfl fun _ => rfl))
  case probeEngineRestart => exact inRange_of_same h hs (.unless (.of_vectorOf rfl rfl fun _ => rfl))
  case reportUnitRestart => exact inRange_of_same h hs (.unless (.of_vectorOf rfl rfl fun _ => rfl))

/-- Settles O59: a step runs the command at the front of the queue, and every command keeps the ranges. -/
theorem everyStepKeepsTheReceiversInRange : Obligations.EveryStepKeepsTheReceiversInRange := by
  intro s t hs h
  unfold step at h
  split at h
  · cases h; exact hs
  · next c rest _ => exact exec_keeps_receiversInRange (s := { s with pending := rest }) hs h

end Sys2Proof.Machine
end

section
/-! PROOFS. The line-in side of the carrier streams: alignment (O12), a delivered frame at a slot (O13) and a delivered
frame on line-in (O15). -/

namespace Sys2Proof.Machine

/-! ## Alignment -/

theorem execHuntCandidate_eq {s : State} {side : Side} (input : List Byte) (hr : s.resetHeld = false)
    (ha : (s.receiver.get side).align = .hunt) :
    exec (.huntCandidate side input) s =
      .next { s with receiver := s.receiver.set side (huntReceiver (s.receiver.get side) input) } := by
  simp only [exec, execHuntCandidate, act_running hr, ha]

theorem execConfirmFrame_eq {s : State} {side : Side} {start : Nat} {p : Phase} (word : Vector Byte 4) (b : Byte)
    (hr : s.resetHeld = false) (ha : (s.receiver.get side).align = .confirm start p) :
    exec (.confirmFrame side word b) s =
      .next { s with receiver := s.receiver.set side (confirmReceiver (s.receiver.get side) start p word b) } := by
  simp only [exec, execConfirmFrame, act_running hr, ha]

theorem huntReceiver_found (r : Receiver) {input : List Byte} {k : Nat} {b : Byte} (hk : FrameStartAt input k)
    (hfirst : ∀ k' < k, ¬ FrameStartAt input k') (hb : input[k + 4]? = some b) :
    huntReceiver r input = { r with align := .confirm (r.searchFrom + k) (BitVec.ofNat 5 b.toNat) } := by
  have found := huntSearch_found input r.searchFrom k b hk hfirst hb
  unfold huntReceiver
  split
  · next hs => rw [hs] at found; cases found; rfl
  · next hs => rw [hs] at found; cases found

theorem huntReceiver_none (r : Receiver) {input : List Byte} (h : ∀ k, ¬ FrameStartAt input k) :
    huntReceiver r input = { r with searchFrom := r.searchFrom + (input.length - 4) } := by
  simp only [huntReceiver, huntSearch_none input r.searchFrom h]

/-- The frame after a candidate confirms it by the words of R7. -/
theorem confirms_iff (p : Phase) (word : Vector Byte 4) (b : Byte) :
    confirms p word b = true ↔ word = #v[0xD3, 0x2E, 0x71, 0x0C] ∧ b.toNat = (p.toNat + 1) % 32 := by
  rw [← phase_succ]
  simp [confirms, Config.alignmentWord, and_assoc]

theorem confirmReceiver_confirmed (r : Receiver) (start : Nat) {p : Phase} {word : Vector Byte 4} {b : Byte}
    (h : word = #v[0xD3, 0x2E, 0x71, 0x0C] ∧ b.toNat = (p.toNat + 1) % 32) :
    confirmReceiver r start p word b = { r with
      align := .locked, missCount := 0, phase := some (p + 1), nextStart := some (start + 250304 + 250304) } := by
  have hb : b.setWidth 5 = p + 1 := ((phase_succ b p).mpr h.2).2
  have hn : start + 2 * Config.frameBytes = start + 250304 + 250304 := by rw [Nat.two_mul, Nat.add_assoc]
  rw [confirmReceiver, if_pos ((confirms_iff p word b).mpr h), hb, hn]

theorem confirmReceiver_refused (r : Receiver) (start : Nat) {p : Phase} {word : Vector Byte 4} {b : Byte}
    (h : ¬ (word = #v[0xD3, 0x2E, 0x71, 0x0C] ∧ b.toNat = (p.toNat + 1) % 32)) :
    confirmReceiver r start p word b = { r with align := .hunt, searchFrom := start + 1 } := by
  rw [confirmReceiver, if_neg (fun hc => h ((confirms_iff p word b).mp hc))]

/-- Settles O12: what the search of HUNT finds, and when CONFIRM enters LOCKED. -/
theorem searchAndConfirmFindTheAlignment : Obligations.SearchAndConfirmFindTheAlignment := by
  refine ⟨fun s side input hr ha => ?_, fun s side word b start p hr ha => ?_⟩
  · exact ⟨_, _, execHuntCandidate_eq input hr ha, rfl, fun k b hk hfirst hb => huntReceiver_found _ hk hfirst hb,
      huntReceiver_none _⟩
  · exact ⟨_, _, execConfirmFrame_eq word b hr ha, rfl, confirmReceiver_confirmed _ start,
      confirmReceiver_refused _ start⟩

/-! ## A delivered frame at a slot -/

/-- The tag receiver after the overhead of a delivered frame, before the cycle end of phase 31 (R12, R21, R22). -/
def receivedTag (slipped : Bool) (p : Phase) (b : SlotBytes) (sl : SlotState) : TagReceiver :=
  takeOverhead (if slipped then tagSlip sl.tag else sl.tag) p b.tag b.condition
    (parityMismatches sl.parityMemory b.parity)

theorem deliverSlot_eq (slipped : Bool) (p : Phase) (start : Option Stamp) (b : SlotBytes) (sl : SlotState) :
    deliverSlot slipped p start b sl =
      (let taken := { sl with tag := receivedTag slipped p b sl, parityMemory := some (xorBytes b.payload) }
       if p = 31 then tagCycleEnd start taken else taken) := rfl

theorem assemblyAfter_get (a : Vector (Option Byte) 32) (p : Phase) (tag : Byte) (k : Fin 32) :
    (assemblyAfter a p tag)[k] = if k.val = p.toNat then some tag else if p = 0 then none else a[k] := by
  have ha : (if p = 0 then Vector.replicate 32 none else a)[k] = if p = 0 then none else a[k] := by
    split <;> simp
  simp only [← ha, @eq_comm _ k.val]
  exact Vector.getElem_set ..

theorem receivedTag_assembly (slipped : Bool) (p : Phase) (b : SlotBytes) (sl : SlotState) (k : Fin 32) :
    (receivedTag slipped p b sl).assembly[k] =
      if k.val = p.toNat then some b.tag else if slipped = true ∨ p = 0 then none else sl.tag.assembly[k] := by
  refine (assemblyAfter_get _ p b.tag k).trans ?_
  cases slipped with
  | false => simp
  | true => simp [tagSlip]

theorem receivedTag_slipMark (slipped : Bool) (p : Phase) (b : SlotBytes) (sl : SlotState) :
    (receivedTag slipped p b sl).slipMark = (slipped || sl.tag.slipMark) := by
  cases slipped <;> rfl

theorem receivedTag_paritySum (slipped : Bool) (p : Phase) (b : SlotBytes) (sl : SlotState) :
    (receivedTag slipped p b sl).paritySum =
      (if slipped then 0 else sl.tag.paritySum) + parityMismatches sl.parityMemory b.parity := by
  cases slipped <;> rfl

theorem receivedTag_forwardDefectSeen (slipped : Bool) (p : Phase) (b : SlotBytes) (sl : SlotState) :
    (receivedTag slipped p b sl).forwardDefectSeen = (sl.tag.forwardDefectSeen || b.condition.getLsb 0) := by
  cases slipped <;> rfl

/-- The overhead of a frame touches the five fields of R21 alone. -/
theorem receivedTag_rest (slipped : Bool) (p : Phase) (b : SlotBytes) (sl : SlotState) :
    receivedTag slipped p b sl = { sl.tag with
      assembly := (receivedTag slipped p b sl).assembly, slipMark := (receivedTag slipped p b sl).slipMark
      paritySum := (receivedTag slipped p b sl).paritySum
      forwardDefectSeen := (receivedTag slipped p b sl).forwardDefectSeen
      protectBit := (receivedTag slipped p b sl).protectBit } := by
  cases slipped <;> rfl

/-- Settles O13. -/
theorem deliveredFrameAtASlot : Obligations.DeliveredFrameAtASlot := by
  intro slipped p start b sl
  refine ⟨receivedTag slipped p b sl, fun hp => ?_, fun hp => ?_, receivedTag_assembly slipped p b sl,
    receivedTag_slipMark .., fun hm => ?_, fun m hm => ?_, receivedTag_forwardDefectSeen .., rfl, receivedTag_rest ..⟩
  · rw [deliverSlot_eq, if_neg hp]; rfl
  · rw [deliverSlot_eq, if_pos hp]; rfl
  · rw [receivedTag_paritySum, hm]; rfl
  · rw [receivedTag_paritySum, hm, ← countOnes_xor]; rfl

/-! ## A delivered frame on line-in -/

theorem execLockedFrameJudged_eq {s : State} {side : Side} (a : Arrival) (hr : s.resetHeld = false)
    (ha : (s.receiver.get side).align = .locked) :
    exec (.lockedFrameJudged side a) s = .next (lockedFrame s side a.frame a.sent) := by
  simp only [exec, execLockedFrameJudged, act_running hr, ha]

/-- The state once a receiver in LOCKED has judged its frame (R8). -/
def judgedAs (s : State) (side : Side) (j : Judgement) : State :=
  { s with receiver := s.receiver.set side (receiverAfter (s.receiver.get side) j) }

/-- A line-in frame that is not the third miss is delivered with its phase (R8, R11). -/
theorem lineFrame_delivered {s : State} {f : Frame} {ph : Phase} {j : Judgement}
    (hj : judgeLocked s.receiver.line f.word f.phase = j) (h : j = .good ph ∨ j = .slip ph ∨ j = .miss ph)
    (sent : Nat) :
    lineFrame s f sent = deliverLine (judgedAs s .line j) j ph f sent := by
  unfold lineFrame
  rw [hj]
  rcases h with rfl | rfl | rfl <;> rfl

theorem cycleStartAfter_eq {s : State} {ph : Phase} {j : Judgement} (h : j = .good ph ∨ j = .slip ph ∨ j = .miss ph) :
    cycleStartAfter s j ph =
      if ph = 0 then some s.timebase.stamp else if isSlip j then none else s.lineCycleStart := by
  unfold cycleStartAfter
  rcases h with rfl | rfl | rfl <;> rfl

/-- How much of its frame before an output has sent when a delivered frame starts (R13, R16). -/
theorem sentBefore_eq (o : Output) (sent : Nat) :
    sentBefore o sent = if o.timing = .localTimed then sent else 250304 := by
  unfold sentBefore
  cases o.timing <;> rfl

/-- Settles O15: the judgement delivers, and the delivery is drop-out's next frame. -/
theorem lockedLineFrameIsDelivered : Obligations.LockedLineFrameIsDelivered := by
  intro s f sent p n slipped miss ph hr ha hp hn ht start
  obtain ⟨j, hj, hph, hslip, hrec⟩ := judgeLocked_taken hp hn ht
  have hstart : cycleStartAfter s j ph = start := by rw [cycleStartAfter_eq hph, hslip]
  refine ⟨deliverLine (judgedAs s .line j) j ph f sent, ?_, ?_, hstart, fun i => ?_, rfl, ?_, rfl, rfl⟩
  · rw [execLockedFrameJudged_eq (side := .line) _ hr ha]
    exact congrArg _ (lineFrame_delivered hj hph sent)
  · rw [← hrec]; rfl
  · refine (State.mapSlots_slot _ _ i).trans ?_
    rw [hslip]
    exact congrArg (fun st => deliverSlot slipped ph st f.slots[i] s.slots[i]) hstart
  · rw [← sentBefore_eq]
    exact endedOutput_putFrame ..

end Sys2Proof.Machine
end

section
/-! PROOFS. The outputs: what is left of them at a third miss (O16). -/

namespace Sys2Proof.Machine

/-! ## Leaving FOLLOW -/

theorem leaveFollow_local {s : State} {output : Side} (h : (s.output.get output).timing = .localTimed) (sent : Nat) :
    leaveFollow s output sent = s := by
  unfold leaveFollow
  rw [h]

theorem leaveFollow_output_other (s : State) {output side : Side} (h : side ≠ output) (sent : Nat) :
    (leaveFollow s output sent).output.get side = s.output.get side := by
  unfold leaveFollow
  split
  · exact Sides.get_set_other _ h _
  · rfl

theorem leaveFollow_output {s : State} {output : Side} (h : (s.output.get output).timing = .follow) (sent : Nat) :
    (leaveFollow s output sent).output.get output = { s.output.get output with
      timing := .localTimed, frameDue := false, frame := ((leaveFollow s output sent).output.get output).frame } := by
  unfold leaveFollow
  simp only [h, Sides.get_set_same]

/-- Of the management unit, leaving FOLLOW changes the output's own arbiter alone (R160). -/
theorem leaveFollow_management (s : State) (output : Side) (sent : Nat) :
    (leaveFollow s output sent).management = { s.management with
      arbiter := s.management.arbiter.set output ((leaveFollow s output sent).management.arbiter.get output) } := by
  unfold leaveFollow
  split
  · cases output <;> rfl
  · cases output <;> rfl

/-! ## The third miss -/

/-- The receiver after the third miss searches from the byte after byte 4 (R8). -/
theorem receiverAfter_loss {r : Receiver} {n : Nat} (hn : r.nextStart = some n) (p : Phase) :
    receiverAfter r (.loss p) =
      { align := .hunt, missCount := 0, phase := some p, nextStart := some (n + Config.frameBytes)
        searchFrom := n + 5 } := by
  simp only [receiverAfter, judgedStart, hn, Option.getD_some]

/-- The state once a receiver has judged its third miss (R8). -/
def lostLock (s : State) (side : Side) : State := judgedAs s side (.loss ((s.receiver.get side).phase.getD 0 + 1))

/-- What the third miss makes of the two receivers (R8). -/
theorem lostLock_receiver {s : State} {side : Side} {n : Nat} (hn : (s.receiver.get side).nextStart = some n) :
    (lostLock s side).receiver.get (opposite side) = s.receiver.get (opposite side) ∧
      ((lostLock s side).receiver.get side).align = .hunt ∧
      ((lostLock s side).receiver.get side).missCount = 0 ∧
      ((lostLock s side).receiver.get side).searchFrom = n + 5 := by
  simp only [lostLock, judgedAs, Sides.get_set_same, receiverAfter_loss hn, and_self, and_true]
  exact Sides.get_set_other _ (by cases side <;> decide) _

/-- The third miss on line-in is the loss of LOCKED. -/
theorem lineFrame_loss {s : State} {f : Frame} (hm : 2 ≤ s.receiver.line.missCount)
    (hf : f.word ≠ Config.alignmentWord ∨ 31 < f.phase.toNat) (sent : Nat) :
    lineFrame s f sent = loseLine (lostLock s .line) sent := by
  unfold lineFrame
  rw [judgeLocked_loss hm hf]
  rfl

/-- The third miss on drop-in is the loss of LOCKED. -/
theorem dropFrame_loss {s : State} {f : Frame} (hm : 2 ≤ s.receiver.drop.missCount)
    (hf : f.word ≠ Config.alignmentWord ∨ 31 < f.phase.toNat) (sent : Nat) :
    dropFrame s f sent = loseDrop (lostLock s .drop) sent := by
  unfold dropFrame
  rw [judgeLocked_loss hm hf]
  rfl

/-- The state that the line receiver's loss of LOCKED leaves, before drop-out leaves FOLLOW (R9, R11, R23). -/
def lineLost (s : State) : State :=
  { s.mapSlots (fun _ sl =>
      { sl with
        tag := tagAlignmentLoss sl.tag
        parityMemory := none
        inFlight := { sl.inFlight with losses := sl.inFlight.losses + 1 } }) with
    lineCycleStart := none
    management := { s.management with
      channel := s.management.channel.set .line (abandonFrame s.management.channel.line) } }

theorem loseLine_eq (s : State) (sent : Nat) : loseLine s sent = leaveFollow (lineLost s) .drop sent := rfl

theorem lineLost_slot (s : State) (i : Slot) :
    (lineLost s).slots[i] = { s.slots[i] with
      tag := tagAlignmentLoss s.slots[i].tag, parityMemory := none
      inFlight := { s.slots[i].inFlight with losses := s.slots[i].inFlight.losses + 1 } } :=
  State.mapSlots_slot s (fun _ sl =>
    { sl with
      tag := tagAlignmentLoss sl.tag, parityMemory := none
      inFlight := { sl.inFlight with losses := sl.inFlight.losses + 1 } }) i

/-- The state with the drop side's management frame abandoned (R154). -/
def dropAbandoned (s : State) : State :=
  { s with management := { s.management with
      channel := s.management.channel.set .drop (abandonFrame s.management.channel.drop) } }

theorem loseDrop_local {s : State} (h : s.output.line.timing = .localTimed) (sent : Nat) :
    loseDrop s sent = dropAbandoned s := by
  unfold loseDrop
  rw [h]
  rfl

theorem loseDrop_follow {s : State} (h : s.output.line.timing = .follow) (sent : Nat) :
    loseDrop s sent = leaveFollow (cutCycle (dropAbandoned s) sent) .line sent := by
  unfold loseDrop
  rw [h]
  rfl

/-- Settles O16: on each side the receiver's loss of LOCKED, and what it leaves of the opposite output. -/
theorem thirdMissLosesAlignment : Obligations.ThirdMissLosesAlignment := by
  refine ⟨fun s f sent n hr ha hn hm hf => ?_, fun s f sent n hr ha hn hm hf => ?_⟩
  · have hx := execLockedFrameJudged_eq (side := .line) { frame := f, sent := sent } hr ha
    rw [lockedFrame, lineFrame_loss hm hf, loseLine_eq] at hx
    have hrec := lostLock_receiver (side := .line) hn
    have hrest := leaveFollow_rest (lineLost (lostLock s .line)) .drop sent
    refine ⟨_, hx, ?_, ?_, fun i => ?_, leaveFollow_management (lineLost (lostLock s .line)) .drop sent,
      leaveFollow_output_other (side := .line) (lineLost (lostLock s .line)) (by decide) sent, fun hl => ?_,
      fun hl => ⟨leaveFollow_output (s := lineLost (lostLock s .line)) (output := .drop) hl sent,
        endedOutput_leaveFollow (lineLost (lostLock s .line)) .drop sent hl⟩, ?_⟩
    · rw [hrest]; exact hrec
    · rw [hrest]; rfl
    · rw [leaveFollow_slots]
      exact lineLost_slot (lostLock s .line) i
    · rw [leaveFollow_local (s := lineLost (lostLock s .line)) (output := .drop) hl]
      exact ⟨rfl, rfl⟩
    · rw [hrest]; rfl
  · have hx := execLockedFrameJudged_eq (side := .drop) { frame := f, sent := sent } hr ha
    rw [lockedFrame, dropFrame_loss hm hf] at hx
    have hrec := lostLock_receiver (side := .drop) hn
    cases hl : s.output.line.timing with
    | localTimed =>
      rw [loseDrop_local (s := lostLock s .drop) hl] at hx
      exact ⟨_, hx, hrec, rfl, rfl, fun _ => ⟨rfl, rfl, rfl, rfl⟩, nofun, rfl⟩
    | follow =>
      rw [loseDrop_follow (s := lostLock s .drop) hl] at hx
      obtain ⟨_, hcut⟩ := cutCycle_spec (dropAbandoned (lostLock s .drop)) sent
      have hrest := leaveFollow_rest (cutCycle (dropAbandoned (lostLock s .drop)) sent) .line sent
      refine ⟨_, hx, ?_, leaveFollow_management (cutCycle (dropAbandoned (lostLock s .drop)) sent) .line sent,
        leaveFollow_output_other (side := .drop) (cutCycle (dropAbandoned (lostLock s .drop)) sent) (by decide) sent,
        nofun, fun _ => ⟨?_, ?_, ?_, fun i => ?_⟩, ?_⟩
      · rw [hrest]; exact hrec
      · exact leaveFollow_output (s := cutCycle (dropAbandoned (lostLock s .drop)) sent) (output := .line) hl sent
      · exact endedOutput_leaveFollow (cutCycle (dropAbandoned (lostLock s .drop)) sent) .line sent hl
      · rw [hrest]; rfl
      · rw [leaveFollow_slots]
        exact hcut i
      · rw [hrest]; rfl

end Sys2Proof.Machine
end

section
/-! PROOFS. The frames that line-out carries from drop-in (O17), and LOCAL frames (O18). -/

namespace Sys2Proof.Machine

/-! ## The tag bytes of a line-out frame -/

theorem lineTags_inCycle (s : State) (timing : Timing) (p : Phase) (slots : Vector SlotBytes 128) (i : Slot) :
    (lineTags s timing true p slots)[i] =
      { slots[i] with tag := cycleByte timing s.lineTx.identity s.slots[i].tx p.toNat slots[i].tag } := by
  rw [lineTags, vectorOf_get]; rfl

theorem lineTags_stray (s : State) (timing : Timing) (p : Phase) (slots : Vector SlotBytes 128) (i : Slot) :
    (lineTags s timing false p slots)[i] =
      { slots[i] with tag := strayByte timing s.slots[i].map.txRole slots[i].tag } := by
  rw [lineTags, vectorOf_get]; rfl

/-- A frame in FOLLOW that belongs to no cycle carries 00h on ORIGINATE slots and passes the others (R17). -/
theorem strayByte_follow (role : TxRole) (b : Byte) : strayByte .follow role b = if role = .originate then 0 else b := by
  cases role <;> rfl

/-- In LOCAL a frame that belongs to no cycle carries 00h (R17). -/
theorem strayByte_local (role : TxRole) (b : Byte) : strayByte .localTimed role b = 0 := by
  cases role <;> rfl

/-- In LOCAL a frame of a cycle carries the originated tags, and 00h on the other slots (R33, R36). -/
theorem cycleByte_local (identity : Option Half) (t : TagTransmitter) (p : Nat) (b : Byte) :
    cycleByte .localTimed identity t p b =
      if t.latched.role = .originate then byteAt (originTag identity t.latched) p else 0 := by
  unfold cycleByte
  cases t.latched.role <;> rfl

/-! ## Drop-in frames on line-out -/

/-- The state in which line-out starts a frame in FOLLOW: a switch from LOCAL has cut its cycle (R16, R17). -/
def followed (s : State) (sent : Nat) : State :=
  match s.output.line.timing with
  | .follow => s
  | .localTimed => cutCycle s sent

theorem followed_follow {s : State} (h : s.output.line.timing = .follow) (sent : Nat) : followed s sent = s := by
  unfold followed
  rw [h]

theorem followed_local {s : State} (h : s.output.line.timing = .localTimed) (sent : Nat) :
    followed s sent = cutCycle s sent := by
  unfold followed
  rw [h]

theorem followed_rest (s : State) (sent : Nat) :
    followed s sent = { s with slots := (followed s sent).slots, lineTx := (followed s sent).lineTx } := by
  unfold followed
  split <;> rfl

theorem followed_slot (s : State) (sent : Nat) (i : Slot) :
    (followed s sent).slots[i] = if s.output.line.timing = .localTimed then SlotAtCut s sent i else s.slots[i] := by
  cases h : s.output.line.timing with
  | follow => rw [followed_follow h]; rfl
  | localTimed => rw [followed_local h]; exact (cutCycle_spec s sent).2 i

theorem followed_slot_map (s : State) (sent : Nat) (i : Slot) :
    (followed s sent).slots[i].map = s.slots[i].map := by
  rw [followed_slot]
  split <;> rfl

/-- Whatever becomes of the cycle, the line transmitter keeps its latched identity (R17, R32). -/
theorem followed_lineTx (s : State) (sent : Nat) (cycle : Option TxCycle) (startDue ending : Bool) :
    { (followed s sent).lineTx with cycle := cycle, startDue := startDue, ending := ending } =
      { s.lineTx with cycle := cycle, startDue := startDue, ending := ending } := by
  unfold followed
  split <;> rfl

/-- No cycle goes on in a phase after a switch to FOLLOW or a break of phase (R17). -/
theorem cycleAt_followed_none {s : State} {p : Phase} (sent : Nat)
    (h : s.output.line.timing = .localTimed ∨ ∀ c, s.lineTx.cycle = some c → c.next ≠ p.toNat) :
    cycleAt (followed s sent) p = none := by
  cases ht : s.output.line.timing with
  | localTimed => rw [followed_local ht]; rfl
  | follow =>
    rw [followed_follow ht]
    exact cycleAt_none (h.resolve_left (by rw [ht]; decide))

/-- The state once the drop side's management bytes have been taken (R10, R153). -/
def dropHeard (s : State) (f : Frame) : State :=
  { s with management := { s.management with
      channel := s.management.channel.set .drop (channelBytes s.management.channel.drop f.mgmt.toList) } }

theorem deliverDrop_eq (s : State) (p : Phase) (f : Frame) (sent : Nat) :
    deliverDrop s p f sent =
      startLineFrame (followed (dropHeard s f) sent) .follow (sentBefore s.output.line sent)
        (newFrame p f.carried f.slots) := rfl

/-- A drop-in frame that is not the third miss is delivered with its phase (R8, R10). -/
theorem dropFrame_delivered {s : State} {f : Frame} {ph : Phase} {j : Judgement}
    (hj : judgeLocked s.receiver.drop f.word f.phase = j) (h : j = .good ph ∨ j = .slip ph ∨ j = .miss ph)
    (sent : Nat) :
    dropFrame s f sent = deliverDrop (judgedAs s .drop j) ph f sent := by
  unfold dropFrame
  rw [hj]
  rcases h with rfl | rfl | rfl <;> rfl

/-- The state in which line-out starts the frame that a drop-in frame judged as `j` gives it. -/
def lineReady (s : State) (j : Judgement) (f : Frame) (sent : Nat) : State :=
  followed (dropHeard (judgedAs s .drop j) f) sent

theorem lineReady_rest (s : State) (j : Judgement) (f : Frame) (sent : Nat) :
    lineReady s j f sent = { dropHeard (judgedAs s .drop j) f with
      slots := (lineReady s j f sent).slots, lineTx := (lineReady s j f sent).lineTx } := followed_rest ..

theorem lineReady_output (s : State) (j : Judgement) (f : Frame) (sent : Nat) :
    (lineReady s j f sent).output = s.output := by rw [lineReady_rest]; rfl

theorem lineReady_management (s : State) (j : Judgement) (f : Frame) (sent : Nat) :
    (lineReady s j f sent).management = (dropHeard s f).management := by rw [lineReady_rest]; rfl

theorem lineReady_slot (s : State) (j : Judgement) (f : Frame) (sent : Nat) (i : Slot) :
    (lineReady s j f sent).slots[i] =
      if s.output.line.timing = .localTimed then SlotAtCut s sent i else s.slots[i] :=
  followed_slot (dropHeard (judgedAs s .drop j) f) sent i

theorem lineReady_slot_map (s : State) (j : Judgement) (f : Frame) (sent : Nat) (i : Slot) :
    (lineReady s j f sent).slots[i].map = s.slots[i].map :=
  followed_slot_map (dropHeard (judgedAs s .drop j) f) sent i

theorem lineReady_lineTx (s : State) (j : Judgement) (f : Frame) (sent : Nat) (cycle : Option TxCycle)
    (startDue ending : Bool) :
    { (lineReady s j f sent).lineTx with cycle := cycle, startDue := startDue, ending := ending } =
      { s.lineTx with cycle := cycle, startDue := startDue, ending := ending } :=
  followed_lineTx (dropHeard (judgedAs s .drop j) f) sent cycle startDue ending

theorem lineReady_follow {s : State} (h : s.output.line.timing = .follow) (j : Judgement) (f : Frame) (sent : Nat) :
    lineReady s j f sent = dropHeard (judgedAs s .drop j) f :=
  followed_follow (s := dropHeard (judgedAs s .drop j) f) h sent

theorem execLockedFrameJudged_drop {s : State} {f : Frame} {sent : Nat} {ph : Phase} {j : Judgement}
    (hr : s.resetHeld = false) (ha : s.receiver.drop.align = .locked)
    (hj : judgeLocked s.receiver.drop f.word f.phase = j) (h : j = .good ph ∨ j = .slip ph ∨ j = .miss ph) :
    exec (.lockedFrameJudged .drop { frame := f, sent := sent }) s =
      .next (startLineFrame (lineReady s j f sent) .follow (sentBefore s.output.line sent)
        (newFrame ph f.carried f.slots)) := by
  rw [execLockedFrameJudged_eq (side := .drop) _ hr ha]
  exact congrArg _ (dropFrame_delivered hj h sent)

/-- Settles O17: the start of the line-out frame, in the state that the drop side and a switch to FOLLOW leave. -/
theorem lockedDropFrameIsDelivered : Obligations.LockedDropFrameIsDelivered := by
  intro s f sent p n slipped miss ph hr ha hp hn ht before
  obtain ⟨j, hj, hph, _, hrec⟩ := judgeLocked_taken hp hn ht
  obtain ⟨slots, houtput, hended, hrest, hzero, hstray, hcycle⟩ :=
    startLineFrame_spec (lineReady s j f sent) .follow (sentBefore s.output.line sent) (newFrame ph f.carried f.slots)
  refine ⟨_, { newFrame ph f.carried f.slots with slots := slots }, execLockedFrameJudged_drop hr ha hj hph, ?_, ?_, rfl,
    ?_, ?_, ?_, fun h0 => ?_, fun c h0 hl hc hnext => ?_, fun h0 hl => ?_⟩
  · rw [← hrec, hrest, lineReady_rest]; rfl
  · rw [lineReady_output] at houtput; exact houtput
  · rw [← sentBefore_eq]
    simp only [EndedOutput, lineReady_output, lineReady_management] at hended
    exact hended
  · rw [hrest, lineReady_management]; rfl
  · rw [hrest, lineReady_rest]; rfl
  · obtain ⟨rfl, hs, hlt⟩ := hzero h0
    refine ⟨hlt.trans (lineReady_lineTx ..), fun i => ⟨rfl, ?_⟩⟩
    rw [hs]
    exact lineReady_slot s j f sent i
  · have hfollow := lineReady_follow hl j f sent
    obtain ⟨rfl, hs, hlt⟩ := hcycle h0 c (by rw [hfollow]; exact cycleAt_some hc hnext)
    rw [hfollow] at hs hlt ⊢
    exact ⟨hlt, fun i => ⟨lineTags_inCycle .., hs i⟩⟩
  · obtain ⟨rfl, hs, hlt⟩ := hstray h0 (cycleAt_followed_none (s := dropHeard (judgedAs s .drop j) f) sent hl)
    refine ⟨hlt.trans (lineReady_lineTx ..), fun i => ⟨?_, ?_⟩⟩
    · rw [hs]
      exact lineReady_slot s j f sent i
    · refine (lineTags_stray ..).trans ?_
      rw [strayByte_follow, lineReady_slot_map]
      rfl

/-! ## LOCAL frames -/

/-- The low bits of a stamp are zero exactly at the multiples of their power of two (R2, R15). -/
theorem extractLsb'_zero_iff (x : Stamp) (k : Nat) : x.extractLsb' 0 k = 0 ↔ x.toNat % 2 ^ k = 0 := by
  rw [← BitVec.toNat_inj]
  simp

/-- The phase of a LOCAL frame is the stamp divided by 512, modulo 32 (R15). -/
theorem localPhase_toNat (stamp : Stamp) : (localPhase stamp).toNat = stamp.toNat / 512 % 32 := by
  simp [localPhase, Nat.shiftRight_eq_div_pow]

theorem localFrameReady_of {s : State} {output : Side} (ht : (s.output.get output).timing = .localTimed)
    (hd : (s.output.get output).frameDue = true) (hs : s.timebase.stamp.toNat % 512 = 0) :
    localFrameReady s output = true := by
  have hz : s.timebase.stamp.extractLsb' 0 9 = 0 := (extractLsb'_zero_iff _ 9).mpr hs
  simp [localFrameReady, ht, hd, hz]

theorem execLocalFrameStart_eq {s : State} {output : Side} (hr : s.resetHeld = false)
    (h : localFrameReady s output = true) :
    exec (.localFrameStart output) s = .next (startLocalFrame s output) := by
  simp only [exec, execLocalFrameStart, act_running hr, h, if_true]

/-- A slot of a LOCAL frame before tag bytes are written (R4, R15). -/
theorem localFrame_slot (s : State) (output : Side) (i : Slot) :
    (localFrame s output).slots[i] =
      { tag := 0, parity := localParity (s.output.get output) i, condition := 0x01
        payload := List.replicate 1952 0 } :=
  vectorOf_get _ i

/-- The parity byte of a LOCAL frame by the words of R15. -/
theorem localParity_none {o : Output} (h : o.frame = none) (i : Slot) : localParity o i = 0 := by
  rw [localParity, h]

theorem localParity_some {o : Output} {f : OutFrame} (h : o.frame = some f) (i : Slot) :
    localParity o i = if f.cut ≠ none then 0 else f.slots[i].payload.foldl (· ^^^ ·) 0 := by
  simp only [localParity, h, Option.isSome_iff_ne_none]
  rfl

/-- All of a LOCAL frame's slots but their tag bytes, whatever those are (R4, R15). -/
theorem slot_of_localFrame {s : State} {output : Side} {i : Slot} {b : SlotBytes}
    (hb : b = { (localFrame s output).slots[i] with tag := b.tag }) :
    b.condition = 0x01 ∧ b.payload = List.replicate 1952 0 ∧
      ((s.output.get output).frame = none → b.parity = 0) ∧
      ∀ o, (s.output.get output).frame = some o →
        b.parity = if o.cut ≠ none then 0 else o.slots[i].payload.foldl (· ^^^ ·) 0 := by
  rw [hb, localFrame_slot]
  exact ⟨rfl, rfl, fun h => localParity_none h i, fun o h => localParity_some h i⟩

/-- Settles O18: on drop-out the frame starts as it is, on line-out with the tag bytes of `startLineFrame_spec`. -/
theorem localFrameStartsAtItsStamp : Obligations.LocalFrameStartsAtItsStamp := by
  intro s side hr ht hd hs
  have hx := execLocalFrameStart_eq hr (localFrameReady_of ht hd hs)
  have hphase : (localFrame s side).phase.toNat = s.timebase.stamp.toNat / 512 % 32 := localPhase_toNat _
  cases side with
  | drop =>
    refine ⟨_, localFrame s .drop, hx, rfl, endedOutput_putFrame .., hphase, rfl, rfl, rfl, rfl,
      fun i => slot_of_localFrame rfl, rfl, rfl, fun _ => ⟨rfl, rfl, fun i => ?_⟩, nofun, nofun, nofun⟩
    rw [localFrame_slot]
  | line =>
    obtain ⟨slots, houtput, hended, hrest, hzero, hstray, hcycle⟩ :=
      startLineFrame_spec s .localTimed Config.frameBytes (localFrame s .line)
    have hslots : ∀ i : Slot, slots[i] = { (localFrame s .line).slots[i] with tag := slots[i].tag } := by
      intro i
      by_cases h0 : (localFrame s .line).phase = 0
      · rw [(hzero h0).1]
      · cases hc : cycleAt s (localFrame s .line).phase with
        | none => rw [(hstray h0 hc).1, lineTags_stray]
        | some c => rw [(hcycle h0 c hc).1, lineTags_inCycle]
    refine ⟨_, { localFrame s .line with slots := slots }, hx, houtput, hended, hphase, rfl, rfl, rfl, rfl,
      fun i => slot_of_localFrame (hslots i), ?_, ?_, nofun, fun _ h0 => ?_, fun _ h0 hc => ?_, fun c _ h0 hc hn => ?_⟩
    · exact congrArg State.management hrest
    · rw [startLocalFrame, hrest]
    · obtain ⟨rfl, hs, hlt⟩ := hzero h0
      exact ⟨hs, hlt, fun i => by rw [localFrame_slot]⟩
    · obtain ⟨rfl, hs, hlt⟩ := hstray h0 (cycleAt_none hc)
      exact ⟨hs, hlt, fun i => by rw [lineTags_stray, strayByte_local]⟩
    · obtain ⟨rfl, hs, hlt⟩ := hcycle h0 c (cycleAt_some hc hn)
      refine ⟨hlt, fun i => ⟨by rw [lineTags_inCycle, cycleByte_local], ?_⟩⟩
      have hi := hs i
      rw [localFrame_slot] at hi
      exact hi

end Sys2Proof.Machine
end

section
/-! PROOFS. The transmit cycle start (O24). -/

namespace Sys2Proof.Machine

/-! ## The probe table -/

/-- With one entry per slot, the entry of a slot is the one that stands in the table (R104). -/
theorem entryOf_eq_some {t : Vector (Option ProbeEntry) 8} (h : ((entriesOf t).map ProbeEntry.slot).Nodup) {k : Fin 8}
    {e : ProbeEntry} (hk : t[k] = some e) : entryOf t e.slot = some e := by
  have he : e ∈ entriesOf t := (mem_entriesOf t e).mpr ⟨k, hk⟩
  cases hf : entryOf t e.slot with
  | none => exact absurd (List.find?_eq_none.mp hf e he) (by simp)
  | some x =>
    have hx : x ∈ entriesOf t := List.mem_of_find?_eq_some hf
    have hslot : x.slot = e.slot := by simpa using List.find?_some hf
    rw [List.inj_on_of_nodup_map h hx he hslot]

/-- The number of a slot's ARMED entry (R104, R110). -/
theorem armedNumber_armed {t : Vector (Option ProbeEntry) 8} (h : ((entriesOf t).map ProbeEntry.slot).Nodup)
    {k : Fin 8} {e : ProbeEntry} (hk : t[k] = some e) (hl : e.launch = none) :
    armedNumber t e.slot = some e.number := by
  rw [armedNumber, entryOf_eq_some h hk]
  simp only [hl, Option.isNone_none, if_true]

theorem armedNumber_none {t : Vector (Option ProbeEntry) 8} {i : Slot}
    (h : ∀ (k : Fin 8) (e : ProbeEntry), t[k] = some e → e.slot = i → e.launch ≠ none) : armedNumber t i = none := by
  unfold armedNumber
  split
  · next e he =>
    obtain ⟨k, hk⟩ := (mem_entriesOf t e).mp (List.mem_of_find?_eq_some he)
    have hi : e.slot = i := by simpa using List.find?_some he
    simp only [Option.isNone_iff_eq_none, h k e hk hi, if_false]
  · rfl

/-- ARMED entries of ORIGINATE slots are launched at the stamp (R110). -/
theorem launchEntries_get (s : State) (start : Stamp) (k : Fin 8) :
    (launchEntries s start)[k] = s.probe.table[k].map fun e =>
      if e.launch = none ∧ s.slots[e.slot].map.txRole = .originate then { e with launch := some start } else e := by
  rw [launchEntries, mapTable_get]
  cases s.probe.table[k] with
  | none => rfl
  | some e =>
    simp only [Option.bind_some, Option.map_some, Option.isNone_iff_eq_none]
    split <;> rfl

/-! ## The probe and echo fields -/

theorem ageField_eq (field : Option ProbeField) :
    ageField field = match field with
      | none => none
      | some x => if x.age < 3 then some { number := x.number, age := x.age + 1 } else none := by
  cases field <;> rfl

theorem ageEcho_eq (field : Option EchoField) :
    ageEcho field = match field with
      | none => none
      | some x => if x.age < 3 then some { x with age := x.age + 1 } else none := by
  cases field <;> rfl

/-- The probe fields of a slot after a transmit cycle start (R110, R111, R121). -/
def probeAtCycleStart (s : State) (i : Slot) : SlotProbe :=
  if s.slots[i].map.txRole = .originate then
    slotCycleStart s.timebase.stamp (armedNumber s.probe.table i) s.slots[i].probe
  else s.slots[i].probe

theorem probeAtCycleStart_originate {s : State} {i : Slot} (h : s.slots[i].map.txRole = .originate) :
    probeAtCycleStart s i =
      slotCycleStart s.timebase.stamp (armedNumber s.probe.table i) s.slots[i].probe := if_pos h

theorem probeAtCycleStart_other {s : State} {i : Slot} (h : s.slots[i].map.txRole ≠ .originate) :
    probeAtCycleStart s i = s.slots[i].probe := if_neg h

/-! ## Byte 0 of the tags -/

/-- The values that a slot latches at a transmit cycle start (R32). -/
def latchedAt (s : State) (i : Slot) : Latched :=
  latch s.slots[i].map s.slots[i].context (probeAtCycleStart s i) s.slots[i].tx.latched

theorem latchedAt_role (s : State) (i : Slot) : (latchedAt s i).role = s.slots[i].map.txRole := by
  unfold latchedAt latch
  split
  · next h => exact h.symm
  · rfl

/-- The line transmitter's record of a slot at a transmit cycle start, before byte 0 (R32, R34, R35). -/
def freshTx (s : State) (i : Slot) : TagTransmitter :=
  { s.slots[i].tx with
    latched := latchedAt s i, decision := .undecided, receivedCheck := 0xFFFF, emittedCheck := 0xFFFF
    highRight := false, emitted := [] }

/-- Byte 0 of an originated tag is its kind (R36). -/
theorem cycleByte_zero_originate {timing : Timing} {identity : Option Half} {t : TagTransmitter} (b : Byte)
    (h : t.latched.role = .originate) : cycleByte timing identity t 0 b = 0x5C := by
  unfold cycleByte
  rw [h]
  rfl

/-- No slot is stamped before byte 16, so byte 0 passes (R34). -/
theorem stampByte_zero (identity : Option Half) (t : TagTransmitter) (b : Byte) : stampByte identity t 0 b = b := by
  have hd : decisionAfter identity t.decision 0 b =
      if identity = none ∨ b ≠ Config.tagKind then .carried else .candidate := rfl
  rw [stampByte, hd]
  split
  · next c h => split at h <;> cases h
  · rfl

/-- Byte 0 of a tag that is not originated: 00h in LOCAL, and in FOLLOW as received, for stamping begins later (R33,
R34). -/
theorem cycleByte_zero_other {timing : Timing} {identity : Option Half} {t : TagTransmitter} (b : Byte)
    (h : t.latched.role ≠ .originate) :
    cycleByte timing identity t 0 b = if timing = .localTimed then 0 else b := by
  unfold cycleByte
  split
  · next hr => exact absurd hr h
  · rfl
  · rfl
  · exact stampByte_zero ..

/-! ## The transmit cycle start -/

/-- The tag bytes of the phase-0 frame (R32 to R36). -/
def cycleStartSlots (s : State) (f : OutFrame) : Vector SlotBytes 128 :=
  lineTags (latchCycle s) s.output.line.timing true 0 f.slots

/-- The cycle start that is due, on the frame of line-out. -/
def cycleStarted (s : State) (f : OutFrame) : State :=
  { advanceCycle (latchCycle s) s.output.line.timing { start := s.timebase.stamp, next := 0 } 0 f.slots with
    output := s.output.set .line { s.output.line with frame := some { f with slots := cycleStartSlots s f } } }

theorem startCycle_eq {s : State} {f : OutFrame} (hf : s.output.line.frame = some f)
    (hd : s.lineTx.startDue = true) : startCycle s = cycleStarted s f := by
  simp only [startCycle, hf, hd, if_true]
  rfl

theorem execTransmitCycleStart_eq {s : State} {f : OutFrame} (hr : s.resetHeld = false)
    (hf : s.output.line.frame = some f) (hd : s.lineTx.startDue = true) :
    exec .transmitCycleStart s = .next (cycleStarted s f) := by
  rw [← startCycle_eq hf hd]
  exact act_running hr startCycle

theorem advanceCycle_slot (s : State) (timing : Timing) (c : TxCycle) (p : Phase) (slots : Vector SlotBytes 128)
    (i : Slot) :
    (advanceCycle s timing c p slots).slots[i] = { s.slots[i] with
      tx := cycleNext timing s.lineTx.identity p.toNat slots[i].tag s.slots[i].tx } :=
  State.mapSlots_slot s
    (fun i sl => { sl with tx := cycleNext timing s.lineTx.identity p.toNat slots[i].tag sl.tx }) i

theorem latchCycle_slot (s : State) (i : Slot) :
    (latchCycle s).slots[i] = { s.slots[i] with probe := probeAtCycleStart s i, tx := freshTx s i } :=
  State.mapSlots_slot s (fun i sl => slotAtCycleStart s.timebase.stamp (armedNumber s.probe.table i) sl) i

theorem cycleStarted_slot (s : State) (f : OutFrame) (i : Slot) :
    (cycleStarted s f).slots[i] = { s.slots[i] with
      probe := probeAtCycleStart s i
      tx := cycleNext s.output.line.timing s.management.identity 0 f.slots[i].tag (freshTx s i) } := by
  refine (advanceCycle_slot (latchCycle s) _ { start := s.timebase.stamp, next := 0 } ..).trans ?_
  rw [latchCycle_slot]
  rfl

theorem cycleStartSlots_get (s : State) (f : OutFrame) (i : Slot) :
    (cycleStartSlots s f)[i] = { f.slots[i] with
      tag := cycleByte s.output.line.timing s.management.identity (freshTx s i) 0 f.slots[i].tag } := by
  rw [cycleStartSlots, lineTags_inCycle, latchCycle_slot]
  rfl

/-- Settles O24. -/
theorem transmitCycleStartLatchesAndLaunches : Obligations.TransmitCycleStartLatchesAndLaunches := by
  intro s f hr hf hd hone
  refine ⟨cycleStarted s f, { f with slots := cycleStartSlots s f }, execTransmitCycleStart_eq hr hf hd, rfl, rfl, rfl,
    launchEntries_get s s.timebase.stamp, rfl, fun i => ?_⟩
  dsimp only
  rw [cycleStarted_slot, cycleStartSlots_get]
  refine ⟨rfl, rfl, rfl, rfl, rfl, rfl, fun ho => ?_, fun ho => ?_⟩
  · refine ⟨probeAtCycleStart_other ho, if_neg ho, ?_⟩
    exact cycleByte_zero_other _ (by rw [← latchedAt_role s i] at ho; exact ho)
  · have hp := probeAtCycleStart_originate ho
    refine ⟨cycleByte_zero_originate _ ((latchedAt_role s i).trans ho), ?_, fun k e hk he hl => ?_, fun hl => ?_,
      fun e he => ?_, fun he => ?_, ?_⟩
    · dsimp only; rw [hp]; rfl
    · subst he
      dsimp only; rw [hp]
      simp only [slotCycleStart, armedNumber_armed hone hk hl]
    · dsimp only; rw [hp]
      simp only [slotCycleStart, armedNumber_none hl]
      exact ageField_eq _
    · dsimp only; rw [hp]
      simp only [slotCycleStart, he]
      rfl
    · dsimp only; rw [hp]
      simp only [slotCycleStart, he]
      exact ageEcho_eq _
    · exact if_pos ho

end Sys2Proof.Machine
end

section
/-! PROOFS. Resets, the timebase and the invariants at reset (O2, O3, O4, O54). -/

namespace Sys2Proof.Machine

/-! ## RESETN -/

/-- While RESETN is held low no event but a reset changes anything (R1, R144). -/
theorem exec_held {s : State} (h : s.resetHeld = true) {c : Instr} (hp : c ≠ .powerOn) (hr : c ≠ .resetnAsserted) :
    exec c s = .next s := by
  cases c
  case powerOn => exact absurd rfl hp
  case resetnAsserted => exact absurd rfl hr
  all_goals
    dsimp only [exec]
    exact act_held h _

/-- Settles O2. -/
theorem resetnHoldsThePart : Obligations.ResetnHoldsThePart :=
  fun _ => ⟨⟨_, rfl, rfl, rfl, rfl, rfl⟩, fun h _ hp hr => exec_held h hp hr⟩

/-! ## The timebase -/

theorem tick_stamp (s : State) : (tick s).timebase.stamp.toNat = (s.timebase.stamp.toNat + 1) % 4294967296 := by
  simp [tick, BitVec.toNat_add]

/-- A boundary is reached at the multiples of 16,384 (R2). -/
theorem tick_boundariesDue (s : State) :
    (tick s).timebase.boundariesDue =
      s.timebase.boundariesDue + (if (tick s).timebase.stamp.toNat % 16384 = 0 then 1 else 0) := by
  simp only [tick, beq_iff_eq, extractLsb'_zero_iff, show 2 ^ 14 = 16384 from rfl]
  split <;> rfl

/-- A LOCAL frame is due at the multiples of 512 (R15). -/
theorem tick_output (s : State) (side : Side) :
    (tick s).output.get side =
      { s.output.get side with frameDue := decide ((tick s).timebase.stamp.toNat % 512 = 0) } := by
  have due : ∀ x : Stamp, (x.extractLsb' 0 9 == 0) = decide (x.toNat % 512 = 0) := fun x => by
    rw [Bool.eq_iff_iff, beq_iff_eq, decide_eq_true_eq]
    exact extractLsb'_zero_iff x 9
  cases side <;> simp only [tick, tickOutput, due, Sides.get_line, Sides.get_drop]

theorem raiseBoundary_slot {s : State} (h : 0 < s.timebase.boundariesDue) (i : Slot) :
    (raiseBoundary s).slots[i] = { s.slots[i] with
      inFlight := { s.slots[i].inFlight with boundaries := s.slots[i].inFlight.boundaries + 1 } } := by
  rw [raiseBoundary, if_neg (by omega)]
  exact State.mapSlots_slot s
    (fun _ sl => { sl with inFlight := { sl.inFlight with boundaries := sl.inFlight.boundaries + 1 } }) i

theorem raiseBoundary_timebase {s : State} (h : 0 < s.timebase.boundariesDue) :
    (raiseBoundary s).timebase = { s.timebase with
      periodClock := s.timebase.periodClock + 1, boundariesDue := s.timebase.boundariesDue - 1 } := by
  rw [raiseBoundary, if_neg (by omega)]

theorem raiseBoundary_rest {s : State} (h : 0 < s.timebase.boundariesDue) :
    raiseBoundary s = { s with
      timebase := (raiseBoundary s).timebase, slots := (raiseBoundary s).slots
      probe := { s.probe with boundariesDue := s.probe.boundariesDue + 1 } } := by
  rw [raiseBoundary, if_neg (by omega)]
  rfl

theorem execRefclkTick_eq {s : State} (hr : s.resetHeld = false) : exec .refclkTick s = .next (tick s) :=
  act_running hr tick

theorem execLocalPeriodBoundary_timebase {s : State} (hr : s.resetHeld = false) :
    exec (.localPeriodBoundary .timebase) s = .next (raiseBoundary s) :=
  act_running hr (boundaryAt .timebase)

/-- Settles O4: a tick, and the boundary that a tick has made due. -/
theorem theTimebaseCountsTicksAndPeriods : Obligations.TheTimebaseCountsTicksAndPeriods := by
  refine fun s hr => ⟨⟨tick s, execRefclkTick_eq hr, tick_stamp s, rfl, tick_boundariesDue s, tick_output s, rfl⟩,
    fun hd => ?_⟩
  have htime := raiseBoundary_timebase hd
  refine ⟨raiseBoundary s, execLocalPeriodBoundary_timebase hr, ?_, ?_, ?_, raiseBoundary_slot hd,
    raiseBoundary_rest hd⟩
  · rw [htime]
    exact BitVec.toNat_add s.timebase.periodClock 1
  · rw [htime]
  · rw [htime]
    exact Nat.sub_add_cancel hd

/-! ## The invariants at reset -/

theorem reset_freeHops : State.reset.freeHops = List.finRange 256 := by simp only [State.reset]

theorem reset_hopsConserved : HopsConserved State.reset := by
  have hempty : allocatedHops State.reset = [] := by
    rw [allocatedHops, List.flatten_eq_nil_iff]
    intro l hl
    obtain ⟨sl, hsl, rfl⟩ := List.mem_map.mp hl
    obtain rfl : sl = SlotState.reset := by simpa [State.reset] using hsl
    rfl
  refine ⟨?_, fun i => ?_⟩
  · rw [hempty, List.append_nil, reset_freeHops]
  · rw [State.reset_slot]
    exact Nat.zero_le _

theorem reset_pendingIsQueued : PendingIsQueued State.reset := by
  intro i h
  rw [State.reset_slot] at h
  cases h

theorem reset_checksStandOnEntries : ChecksStandOnEntries State.reset := by
  intro i
  rw [State.reset_slot]
  exact ⟨nofun, nofun⟩

theorem reset_delaysInRange : DelaysInRange State.reset := by
  intro i
  rw [State.reset_slot]
  exact ⟨nofun, by decide, nofun, nofun, nofun⟩

theorem reset_oneEntryPerSlot : OneEntryPerSlot State.reset := by
  have hempty : entriesOf State.reset.probe.table = [] := rfl
  rw [OneEntryPerSlot, hempty]
  exact List.nodup_nil

theorem reset_buffersFollowArbiters : BuffersFollowArbiters State.reset := by
  intro side
  cases side <;> exact ⟨⟨nofun, nofun⟩, ⟨nofun, nofun⟩, rfl⟩

/-- Settles O54. -/
theorem invariantsHoldAtReset : Obligations.InvariantsHoldAtReset :=
  ⟨rfl, List.nodup_nil, reset_pendingIsQueued, reset_hopsConserved, reset_checksStandOnEntries, reset_delaysInRange,
    reset_oneEntryPerSlot, receiversInRange_of_reset rfl rfl, reset_buffersFollowArbiters⟩

/-! ## Power-on -/

/-- Drop-out's first frame started (R15, R18). -/
def dropStarted (pending : List Instr) : State := startLocalFrame { State.reset with pending := pending } .drop

/-- Line-out's first frame, of phase 0, started too; its transmit cycle start is due (R15, R17, R18). -/
def bothStarted (pending : List Instr) : State :=
  putFrame
    { dropStarted pending with lineTx := { (dropStarted pending).lineTx with
        cycle := none, startDue := true, ending := false } }
    .line .localTimed Config.frameBytes (localFrame (dropStarted pending) .line)

theorem localFrame_phase_zero {s : State} (h : s.timebase.stamp = 0) (output : Side) :
    (localFrame s output).phase = 0 := by
  rw [localFrame, h]
  rfl

theorem startLocalFrame_dropStarted (pending : List Instr) :
    startLocalFrame (dropStarted pending) .line = bothStarted pending :=
  if_pos (localFrame_phase_zero rfl .line)

theorem execPowerOn_eq (s : State) :
    exec .powerOn s =
      .next (cycleStarted (bothStarted s.pending) (localFrame (dropStarted s.pending) .line)) := by
  rw [← startCycle_eq rfl rfl, ← startLocalFrame_dropStarted]
  rfl

theorem bothStarted_slot (pending : List Instr) (i : Slot) : (bothStarted pending).slots[i] = SlotState.reset :=
  State.reset_slot i

theorem cycleStarted_freeHops (s : State) (f : OutFrame) : (cycleStarted s f).freeHops = s.freeHops := rfl

theorem poweredOn_freeHops (pending : List Instr) (f : OutFrame) :
    (cycleStarted (bothStarted pending) f).freeHops = List.finRange 256 := by
  rw [cycleStarted_freeHops, bothStarted, putFrame_freeHops, dropStarted, startLocalFrame, putFrame_freeHops,
    reset_freeHops]

/-- The first transmit cycle start finds each slot's record as after reset (R32, R38). -/
theorem freshTx_bothStarted (pending : List Instr) (i : Slot) :
    freshTx (bothStarted pending) i = TagTransmitter.reset := by
  simp only [freshTx, latchedAt, bothStarted_slot]
  rfl

/-- A slot after the first transmit cycle start: of its reset state byte 0 of the first tag has been emitted (R18, R38,
R124). -/
theorem poweredOn_slot (pending : List Instr) (f : OutFrame) (i : Slot) :
    (cycleStarted (bothStarted pending) f).slots[i] = { SlotState.reset with
      tx := cycleNext .localTimed none 0 f.slots[i].tag .reset } := by
  have ho : (bothStarted pending).slots[i].map.txRole ≠ .originate := by rw [bothStarted_slot]; decide
  rw [cycleStarted_slot, probeAtCycleStart_other ho, freshTx_bothStarted, bothStarted_slot]
  rfl

/-- A slot of a first frame (R4, R15, R18). -/
theorem firstFrame_slot {s : State} {output : Side} (h : (s.output.get output).frame = none) (i : Slot) :
    (localFrame s output).slots[i] =
      { tag := 0, parity := 0, condition := 0x01, payload := List.replicate 1952 0 } := by
  rw [localFrame_slot, localParity_none h]

/-- Byte 0 of each slot's first tag is 00h (R15, R33). -/
theorem cycleStartSlots_bothStarted (pending : List Instr) (f : OutFrame) (i : Slot) :
    (cycleStartSlots (bothStarted pending) f)[i] = { f.slots[i] with tag := 0 } := by
  rw [cycleStartSlots_get, freshTx_bothStarted]
  rfl

/-- Settles O3. -/
theorem powerOnState : Obligations.PowerOnState := by
  intro s
  refine ⟨_, execPowerOn_eq s, rfl, rfl, rfl, fun side => ?_, rfl, fun side => ?_, rfl, fun k => ?_,
    poweredOn_freeHops .., ?_, ⟨rfl, rfl, rfl, rfl⟩, ?_, rfl, fun i => ?_⟩
  · cases side <;> exact ⟨rfl, rfl, rfl, rfl⟩
  · cases side with
    | drop => exact ⟨_, rfl, localFrame_phase_zero rfl .drop, rfl, rfl, rfl, rfl, firstFrame_slot (output := .drop) rfl⟩
    | line =>
      refine ⟨_, rfl, localFrame_phase_zero rfl .line, rfl, rfl, rfl, rfl, fun i => ?_⟩
      refine (cycleStartSlots_bothStarted s.pending _ i).trans ?_
      rw [firstFrame_slot rfl]
  · exact Vector.getElem_replicate ..
  · refine ⟨fun k => ?_, rfl, rfl, rfl, rfl, rfl, rfl, rfl, rfl⟩
    refine (launchEntries_get (bothStarted s.pending) _ k).trans ?_
    exact congrArg (Option.map _) (Vector.getElem_replicate ..)
  · refine ⟨rfl, fun side => ?_, rfl, rfl, rfl, rfl, rfl, rfl⟩
    cases side <;> exact ⟨rfl, rfl, rfl, rfl⟩
  · rw [poweredOn_slot]
    exact ⟨rfl, rfl, rfl, ⟨rfl, rfl, rfl, rfl⟩, rfl, rfl, rfl⟩

end Sys2Proof.Machine
end

section
/-! PROOFS. What the outputs carry (O14): the byte of a carrier frame in each of its regions. -/

namespace Sys2Proof.Machine

/-! ## The regions of a carrier frame -/

theorem frameByte_word (f : Frame) {n : Nat} (h : n < 4) : frameByte f n = f.word[n] := by
  rw [frameByte, if_pos h]
  simp [h]

theorem frameByte_phase (f : Frame) : frameByte f 4 = f.phase := rfl

theorem frameByte_mgmt (f : Frame) {k : Nat} (h : k < 4) : frameByte f (5 + k) = f.mgmt[k] := by
  rw [frameByte, if_neg (by omega), if_neg (by omega), if_pos (by omega), Nat.add_sub_cancel_left]
  simp [h]

theorem frameByte_carried (f : Frame) {k : Nat} (h : k < 55) : frameByte f (9 + k) = f.carried.getD k 0 := by
  rw [frameByte, if_neg (by omega), if_neg (by omega), if_neg (by omega), if_pos (by omega), Nat.add_sub_cancel_left]

/-- Bytes 64 to 447 hold three overhead bytes of each slot (R3). -/
theorem frameByte_overhead (f : Frame) (i : Slot) {r : Nat} (h : r < 3) :
    frameByte f (64 + 3 * i.val + r) =
      if r = 0 then f.slots[i].tag else if r = 1 then f.slots[i].parity else f.slots[i].condition := by
  have hi := i.isLt
  have hslot : (64 + 3 * i.val + r - 64) / 3 % 128 = i.val := by omega
  have hrest : (64 + 3 * i.val + r - 64) % 3 = r := by omega
  rw [frameByte, if_neg (by omega), if_neg (by omega), if_neg (by omega), if_neg (by omega), if_pos (by omega)]
  simp only [hslot, hrest]

/-- From byte 448 on the payload bytes of the slots are interleaved (R3). -/
theorem frameByte_payload (f : Frame) (i : Slot) (j : Nat) :
    frameByte f (448 + 128 * j + i.val) = f.slots[i].payload.getD j 0 := by
  have hi := i.isLt
  have hslot : (448 + 128 * j + i.val - 448) % 128 = i.val := by omega
  have hindex : (448 + 128 * j + i.val - 448) / 128 = j := by omega
  rw [frameByte, if_neg (by omega), if_neg (by omega), if_neg (by omega), if_neg (by omega), if_neg (by omega)]
  simp only [hslot, hindex]

/-! ## The bytes of an output -/

theorem outputByte_none {o : Output} (h : o.frame = none) (n : Nat) : outputByte o n = 0 := by
  rw [outputByte, h]

theorem outputByte_sent {o : Output} {f : OutFrame} (h : o.frame = some f) {n : Nat} (hn : n < f.cut.getD 250304) :
    outputByte o n = frameByte (carrierFrame f) n := by
  rw [outputByte, h]
  exact if_pos hn

theorem outputByte_gap {o : Output} {f : OutFrame} (h : o.frame = some f) {n : Nat} (hn : f.cut.getD 250304 ≤ n) :
    outputByte o n = 0 := by
  rw [outputByte, h]
  exact if_neg (Nat.not_lt.mpr hn)

/-- A management position holds the byte placed in it, and 00h while there is none (R5, R160). -/
theorem carrierFrame_mgmt (f : OutFrame) {k : Nat} (h : k < 4) : (carrierFrame f).mgmt[k] = f.placed.getD k 0 :=
  vectorOf_get_val _ k h

theorem getD_of_getElem? {l : List Byte} {k : Nat} {b : Byte} (h : l[k]? = some b) : l.getD k 0 = b := by
  rw [List.getD_eq_getElem?_getD, h, Option.getD_some]

/-- Settles O14: by the region of the byte. -/
theorem outputFramesAreLaidOut : Obligations.OutputFramesAreLaidOut := by
  refine fun o n => ⟨fun h => outputByte_none h n, fun f hf => ⟨outputByte_gap hf, fun hn => ?_⟩⟩
  rw [outputByte_sent hf hn]
  refine ⟨?_, ?_, ?_, ?_, ?_, ?_, ?_, fun i => ⟨?_, ?_, ?_, ?_⟩⟩
  · rintro rfl; exact frameByte_word _ (by decide)
  · rintro rfl; exact frameByte_word _ (by decide)
  · rintro rfl; exact frameByte_word _ (by decide)
  · rintro rfl; exact frameByte_word _ (by decide)
  · rintro rfl
    rw [frameByte_phase]
    exact BitVec.toNat_setWidth_of_le (by decide)
  · rintro k hk rfl
    rw [frameByte_mgmt _ hk, carrierFrame_mgmt f hk]
    exact ⟨fun h => List.getD_eq_default _ _ h, fun b hb => getD_of_getElem? hb⟩
  · rintro k hk rfl b hb
    rw [frameByte_carried _ hk]
    exact getD_of_getElem? hb
  · rintro rfl; exact frameByte_overhead _ i (r := 0) (by decide)
  · intro h
    rw [show n = 64 + 3 * i.val + 1 by omega]
    exact frameByte_overhead _ i (by decide)
  · intro h
    rw [show n = 64 + 3 * i.val + 2 by omega]
    exact frameByte_overhead _ i (by decide)
  · rintro j _ rfl b hb
    rw [frameByte_payload]
    exact getD_of_getElem? hb

end Sys2Proof.Machine
end

section
/-! PROOFS. The tag receiver: the judgement of an assembly (O19) and the line cycle end at a slot (O20). -/

namespace Sys2Proof.Machine

/-! ## The assembled tag -/

/-- A complete assembly is the list of its bytes (R21). -/
theorem assembledTag_of_filled {a : Vector (Option Byte) 32} {bs : List Byte} (h : a.toList = bs.map some) :
    assembledTag a = some bs := by
  unfold assembledTag
  rw [h]
  clear h
  induction bs with
  | nil => rfl
  | cons b bs ih => rw [List.map_cons, List.foldr_cons, ih]

/-- An assembly with an empty position is not complete (R21). -/
theorem assembledTag_of_empty {a : Vector (Option Byte) 32} (h : none ∈ a.toList) : assembledTag a = none := by
  unfold assembledTag
  generalize a.toList = os at h
  induction os with
  | nil => cases h
  | cons o os ih =>
    rw [List.foldr_cons]
    rcases List.mem_cons.mp h with rfl | h
    · rfl
    · rw [ih h]
      cases o <;> rfl

/-- An assembly whose positions are those of 32 bytes lists them. -/
theorem toList_of_positions {a : Vector (Option Byte) 32} {bs : List Byte} (hl : bs.length = 32)
    (h : ∀ p : Fin 32, a[p] = bs[p.val]?) : a.toList = bs.map some := by
  refine List.ext_getElem (by simp [hl]) fun p hp hp' => ?_
  have hlt : p < bs.length := by simpa using hp'
  have hpos : a[p] = bs[p]? := h ⟨p, hl ▸ hlt⟩
  simp [hpos, hlt]

/-! ## The rows of R24 -/

theorem tagCheckCorrect_iff (bs : List Byte) : tagCheckCorrect bs = true ↔ halfAt bs 30 = checkOf (bs.take 30) :=
  beq_iff_eq

theorem judgeTag_checkError {bs : List Byte} (h : halfAt bs 30 ≠ checkOf (bs.take 30)) :
    judgeTag bs = .invalid .checkError := by
  rw [judgeTag, if_pos]
  simpa [tagCheckCorrect] using h

/-- A tag with a correct check is judged by its kind and its ranges (R24). -/
theorem judgeTag_of_correct {bs : List Byte} (h : halfAt bs 30 = checkOf (bs.take 30)) :
    judgeTag bs =
      if byteAt bs 0 ≠ Config.tagKind then .invalid .foreign
      else if (byteAt bs 16).toNat > 6 ∨ (byteAt bs 10).toNat > 3 ∨ (byteAt bs 12).toNat > 3 then .invalid .malformed
      else .valid := by
  rw [judgeTag, if_neg]
  simp [(tagCheckCorrect_iff bs).mpr h]

theorem judgeTag_foreign {bs : List Byte} (h : halfAt bs 30 = checkOf (bs.take 30)) (hk : byteAt bs 0 ≠ 0x5C) :
    judgeTag bs = .invalid .foreign := by
  rw [judgeTag_of_correct h, if_pos hk]

theorem judgeTag_malformed {bs : List Byte} (h : halfAt bs 30 = checkOf (bs.take 30)) (hk : byteAt bs 0 = 0x5C)
    (hr : ¬ ((byteAt bs 16).toNat ≤ 6 ∧ (byteAt bs 10).toNat ≤ 3 ∧ (byteAt bs 12).toNat ≤ 3)) :
    judgeTag bs = .invalid .malformed := by
  rw [judgeTag_of_correct h, if_neg (not_not_intro hk), if_pos (by omega)]

theorem judgeTag_valid {bs : List Byte} (h : halfAt bs 30 = checkOf (bs.take 30)) (hk : byteAt bs 0 = 0x5C)
    (hr : (byteAt bs 16).toNat ≤ 6 ∧ (byteAt bs 10).toNat ≤ 3 ∧ (byteAt bs 12).toNat ≤ 3) :
    judgeTag bs = .valid := by
  rw [judgeTag_of_correct h, if_neg (not_not_intro hk), if_neg (by omega)]

theorem judgeAssembly_slip {t : TagReceiver} (h : t.slipMark = true) : judgeAssembly t = .invalid .slip := by
  rw [judgeAssembly, if_pos h]

theorem judgeAssembly_incomplete {t : TagReceiver} (hs : t.slipMark = false) (h : assembledTag t.assembly = none) :
    judgeAssembly t = .invalid .incomplete := by
  rw [judgeAssembly, if_neg (by simp [hs]), h]

theorem judgeAssembly_complete {t : TagReceiver} {bs : List Byte} (hs : t.slipMark = false)
    (h : assembledTag t.assembly = some bs) : judgeAssembly t = judgeTag bs := by
  rw [judgeAssembly, if_neg (by simp [hs]), h]

/-- Settles O19: one row of R24 after the other. -/
theorem assemblyIsJudgedByTheFirstRow : Obligations.AssemblyIsJudgedByTheFirstRow := by
  intro t
  refine ⟨judgeAssembly_slip, fun hs ⟨p, hp⟩ => ?_, fun bs hl hpos hs => ?_⟩
  · refine judgeAssembly_incomplete hs (assembledTag_of_empty ?_)
    rw [← hp]
    exact Vector.mem_toList_iff.mpr (Vector.getElem_mem p.isLt)
  · have hbs : assembledTag t.assembly = some bs := assembledTag_of_filled (toList_of_positions hl hpos)
    have hjudged : judgeAssembly t = judgeTag bs := judgeAssembly_complete hs hbs
    dsimp only
    rw [hjudged]
    refine ⟨?_, judgeTag_checkError, judgeTag_foreign, judgeTag_malformed, judgeTag_valid⟩
    rw [assemblyBytes, hbs, Option.getD_some]

/-! ## The line cycle end -/

/-- A valid tag whose persistent fields are those of the last valid tag lengthens the run, up to 2; any other begins one
(R26). -/
theorem runAfterValid_eq {t : TagReceiver} (h : t.runLength ≤ 2) (new : HeldTag) :
    runAfterValid t new =
      if ∃ v, t.lastValid = some v ∧ persistentFields v.bytes = new then min 2 (t.runLength + 1) else 1 := by
  have hsat : satInc 2 t.runLength = min 2 (t.runLength + 1) := by
    unfold satInc
    split <;> omega
  unfold runAfterValid
  cases t.lastValid with
  | none => simp
  | some v => simp [hsat]

theorem afterJudgement_valid {t : TagReceiver} (h : judgeAssembly t = .valid) (start : Option Stamp) :
    afterJudgement t start = afterValid t (assemblyBytes t) start := by
  rw [afterJudgement, h]

theorem afterJudgement_invalid {t : TagReceiver} {f : TagFault} (h : judgeAssembly t = .invalid f)
    (start : Option Stamp) : afterJudgement t start = afterInvalid t f := by
  rw [afterJudgement, h]

/-- The judgement touches the tag records alone (R25 to R27). -/
theorem afterJudgement_rest (t : TagReceiver) (start : Option Stamp) :
    afterJudgement t start = { t with
      runLength := (afterJudgement t start).runLength, held := (afterJudgement t start).held
      lastValid := (afterJudgement t start).lastValid, tagLossCount := (afterJudgement t start).tagLossCount
      lastFault := (afterJudgement t start).lastFault } := by
  cases h : judgeAssembly t with
  | valid => rw [afterJudgement_valid h]; rfl
  | invalid f => rw [afterJudgement_invalid h]; rfl

/-- Held tag changed: a valid tag with a run of 2 that was not held before (R26). -/
theorem heldTagChanges_valid {t : TagReceiver} (h : judgeAssembly t = .valid) (start : Option Stamp) :
    heldTagChanges t start =
      decide ((afterValid t (assemblyBytes t) start).runLength = 2 ∧
        t.held ≠ (afterValid t (assemblyBytes t) start).held) := by
  rw [Bool.eq_iff_iff]
  simp [heldTagChanges, h, afterJudgement_valid h]

theorem heldTagChanges_invalid {t : TagReceiver} {f : TagFault} (h : judgeAssembly t = .invalid f)
    (start : Option Stamp) : heldTagChanges t start = false := by
  simp [heldTagChanges, h]

theorem protectChanges_eq (t : TagReceiver) :
    protectChanges t = decide (t.candidate = some (protectIndication t) ∧ protectIndication t ≠ t.heldProtect) := by
  rw [Bool.eq_iff_iff]
  simp [protectChanges]

/-- The held protect state follows the indication when two cycle ends in a row agree (R28). -/
theorem afterProtect_heldProtect (t : TagReceiver) :
    (afterProtect t).heldProtect =
      if t.candidate = some (protectIndication t) then protectIndication t else t.heldProtect := by
  simp only [afterProtect, protectChanges_eq, decide_eq_true_eq]
  by_cases hc : t.candidate = some (protectIndication t)
  · by_cases hp : protectIndication t = t.heldProtect
    · simp [hp]
    · simp [hc, hp]
  · simp [hc]

theorem handoffsOf_eq (t : TagReceiver) (start : Option Stamp) :
    handoffsOf t start =
      if judgeAssembly t = .valid then [echoHandoffOf (assemblyBytes t) (start.getD 0)] else [] := by
  unfold handoffsOf
  cases judgeAssembly t <;> rfl

/-- The held protect state, the candidate and the report of them do not depend on the judgement (R28). -/
theorem afterCycleEnd_heldProtect (t : TagReceiver) (start : Option Stamp) :
    (afterCycleEnd t start).heldProtect =
      if t.candidate = some (protectIndication t) then protectIndication t else t.heldProtect := by
  rw [afterCycleEnd, afterProtect_heldProtect, afterJudgement_rest]
  rfl

theorem afterCycleEnd_candidate (t : TagReceiver) (start : Option Stamp) :
    (afterCycleEnd t start).candidate = some (protectIndication t) := by
  rw [afterCycleEnd, afterJudgement_rest]
  rfl

/-- Settles O20: the records of a valid and of an invalid tag, then the protect state and the report. -/
theorem lineCycleEndReportsTheCycle : Obligations.LineCycleEndReportsTheCycle := by
  intro start sl _ hrun t tag valid ind persistent
  have hpersistent : persistent = persistentFields := rfl
  refine ⟨emptyAccumulations (afterCycleEnd t start), cycleReportOf t start, ?_, fun hv => ?_, fun f hf => ?_,
    ⟨afterCycleEnd_candidate t start, afterCycleEnd_heldProtect t start, protectChanges_eq t⟩, ?_, rfl⟩
  · rw [tagCycleEnd, handoffsOf_eq]
    rfl
  · rw [hpersistent, afterCycleEnd, afterJudgement_valid hv]
    exact ⟨runAfterValid_eq hrun _, rfl, rfl, rfl, rfl, heldTagChanges_valid hv start⟩
  · rw [afterCycleEnd, afterJudgement_invalid hf]
    exact ⟨rfl, rfl, rfl, rfl, rfl, heldTagChanges_invalid hf start⟩
  · rw [afterCycleEnd, afterJudgement_rest]
    exact ⟨rfl, rfl, rfl, rfl, rfl⟩

end Sys2Proof.Machine
end

section
/-! PROOFS. The originated tag (O21), with the two bytes of a 16-bit field. -/

namespace Sys2Proof.Machine

/-! ## Bytes of 16-bit fields -/

theorem highByte_append (a b : Byte) : highByte (a ++ b) = a := by
  unfold highByte
  exact BitVec.extractLsb'_append_eq_left

theorem lowByte_append (a b : Byte) : lowByte (a ++ b) = b := by
  unfold lowByte
  exact BitVec.extractLsb'_append_eq_right

theorem highByte_append_lowByte (h : Half) : highByte h ++ lowByte h = h :=
  BitVec.extractLsb'_append_extractLsb' (w := 8) (len := 8)

/-- A 16-bit field is a value when its two bytes are those of the value. -/
theorem halfAt_eq_iff (bs : List Byte) (i : Nat) (h : Half) :
    halfAt bs i = h ↔ byteAt bs i = highByte h ∧ byteAt bs (i + 1) = lowByte h := by
  unfold halfAt
  constructor
  · rintro rfl
    exact ⟨(highByte_append _ _).symm, (lowByte_append _ _).symm⟩
  · rintro ⟨hh, hl⟩
    rw [hh, hl, highByte_append_lowByte]

/-! ## The fields of an originated tag -/

theorem originTag_check (identity : Option Half) (l : Latched) :
    halfAt (originTag identity l) 30 = checkOf ((originTag identity l).take 30) :=
  highByte_append_lowByte _

/-- The echo hold stands in three bytes, high byte first (R19, R36). -/
theorem originTag_echoHold (identity : Option Half) {l : Latched} (h : l.echoHold < 16777216) :
    tagEchoHold (originTag identity l) = l.echoHold := by
  show (BitVec.ofNat 8 (l.echoHold / 256 ^ 2)).toNat * 65536 + (BitVec.ofNat 8 (l.echoHold / 256 ^ 1)).toNat * 256 +
    (BitVec.ofNat 8 (l.echoHold / 256 ^ 0)).toNat = l.echoHold
  simp only [BitVec.toNat_ofNat]
  omega

/-- Bytes 16 to 29 are 00h: an originated tag has no route record (R36). -/
theorem originTag_reserved (identity : Option Half) (l : Latched) {p : Nat} (h : 16 ≤ p) (h' : p < 30) :
    byteAt (originTag identity l) p = 0x00 := by
  interval_cases p <;> rfl

/-- An age fits its byte (R19). -/
theorem toNat_ofNat_age {age : Nat} (h : age ≤ 3) : (BitVec.ofNat 8 age).toNat = age :=
  Nat.mod_eq_of_lt (by omega)

theorem originTag_probeAge (identity : Option Half) {l : Latched} (h : l.probeAge ≤ 3) :
    (byteAt (originTag identity l) 10).toNat = l.probeAge := toNat_ofNat_age h

theorem originTag_echoAge (identity : Option Half) {l : Latched} (h : l.echoAge ≤ 3) :
    (byteAt (originTag identity l) 12).toNat = l.echoAge := toNat_ofNat_age h

/-- An originated tag has a correct check, the kind of a trail tag and its fields in range (R24, R36). -/
theorem judgeTag_originTag (identity : Option Half) {l : Latched} (hp : l.probeAge ≤ 3) (he : l.echoAge ≤ 3) :
    judgeTag (originTag identity l) = .valid := by
  refine judgeTag_valid (originTag_check identity l) rfl ⟨?_, ?_, ?_⟩
  · rw [originTag_reserved identity l (le_refl 16) (by decide)]
    decide
  · rw [originTag_probeAge identity hp]; exact hp
  · rw [originTag_echoAge identity he]; exact he

/-- Settles O21: field by field. -/
theorem originatedTagsAreValid : Obligations.OriginatedTagsAreValid := by
  intro identity l hp he hh t
  exact ⟨rfl, rfl, highByte_append_lowByte _, rfl, highByte_append_lowByte _, highByte_append_lowByte _, rfl, rfl,
    originTag_probeAge identity hp, rfl, originTag_echoAge identity he, originTag_echoHold identity hh,
    fun _ => originTag_reserved identity l, originTag_check identity l, judgeTag_originTag identity hp he⟩

end Sys2Proof.Machine
end

section
/-! PROOFS. Whole transmit tag cycles: the record after each byte of a cycle, the cycles that are not stamped (O23) and
the verdict of a stamped tag's check (O22). -/

namespace Sys2Proof.Machine

/-! ## One byte of a cycle -/

section
variable (timing : Timing) (identity : Option Half) (p : Nat) (b : Byte) (t : TagTransmitter)

theorem cycleNext_latched : (cycleNext timing identity p b t).latched = t.latched := by
  show (beforeByte p t).latched = t.latched
  unfold beforeByte recordEmitted
  split
  · split <;> rfl
  · rfl

theorem cycleNext_decision :
    (cycleNext timing identity p b t).decision = decisionAfter identity t.decision p b := rfl

theorem cycleNext_emitted :
    (cycleNext timing identity p b t).emitted = t.emitted ++ [cycleByte timing identity t p b] := rfl

theorem cycleNext_receivedCheck :
    (cycleNext timing identity p b t).receivedCheck =
      if p < 30 then checkByte t.receivedCheck b else t.receivedCheck := rfl

theorem cycleNext_emittedCheck :
    (cycleNext timing identity p b t).emittedCheck =
      if p < 30 then checkByte t.emittedCheck (cycleByte timing identity t p b) else t.emittedCheck := rfl

end

theorem checkOf_append_byte (bs : List Byte) (b : Byte) : checkOf (bs ++ [b]) = checkByte (checkOf bs) b :=
  List.foldl_append

/-! ## The record after some bytes of a cycle -/

/-- The line transmitter's record of a slot after the first `n` bytes of a tag cycle. -/
def cycleAfter (timing : Timing) (identity : Option Half) (t : TagTransmitter) (bs : List Byte) (n : Nat) :
    TagTransmitter := cycleRun timing identity t (bs.take n)

/-- The byte that the slot emits at position `p` of the cycle. -/
def cycleOut (timing : Timing) (identity : Option Half) (t : TagTransmitter) (bs : List Byte) (p : Nat) : Byte :=
  cycleByte timing identity (cycleAfter timing identity t bs p) p (byteAt bs p)

/-- The tag that the slot emits over the cycle. -/
def cycleTag (timing : Timing) (identity : Option Half) (t : TagTransmitter) (bs : List Byte) : List Byte :=
  (List.range 32).map (cycleOut timing identity t bs)

/-- The stamping decision of a cycle once byte `p` has been received (R34). -/
def decisionBy (identity : Option Half) (bs : List Byte) (p : Nat) : StampDecision :=
  if identity = none ∨ byteAt bs 0 ≠ Config.tagKind then .carried
  else if p < 16 then .candidate
  else if 6 < (byteAt bs 16).toNat then .carriedTail
  else .stamped (byteAt bs 16).toNat

/-- Bytes other than 0 and 16 keep the decision (R34). -/
theorem decisionAfter_keeps (identity : Option Half) (d : StampDecision) {p : Nat} (b : Byte) (h0 : p ≠ 0)
    (h16 : p ≠ 16) : decisionAfter identity d p b = d := by
  unfold decisionAfter
  rw [if_neg h0, if_neg h16]

/-- Byte 16 decides whether a candidate is stamped (R34). -/
theorem decisionAfter_candidate (identity : Option Half) (b : Byte) :
    decisionAfter identity .candidate 16 b = if 6 < b.toNat then .carriedTail else .stamped b.toNat := rfl

/-- The decision once byte `n` has been received gives that once the next has (R34). -/
theorem decisionAfter_decisionBy (identity : Option Half) (bs : List Byte) (n : Nat) :
    decisionAfter identity (decisionBy identity bs n) (n + 1) (byteAt bs (n + 1)) = decisionBy identity bs (n + 1) := by
  rcases eq_or_ne n 15 with rfl | hn
  · by_cases hk : identity = none ∨ byteAt bs 0 ≠ Config.tagKind
    · rw [show decisionBy identity bs 15 = .carried from if_pos hk,
        show decisionBy identity bs (15 + 1) = .carried from if_pos hk]
      rfl
    · rw [show decisionBy identity bs 15 = .candidate from if_neg hk, decisionAfter_candidate, decisionBy, if_neg hk,
        if_neg (show ¬ 15 + 1 < 16 by decide)]
  · have hside : n + 1 < 16 ↔ n < 16 := by omega
    rw [decisionAfter_keeps _ _ _ n.succ_ne_zero (by omega), decisionBy, decisionBy]
    simp only [hside]

section
variable {timing : Timing} {identity : Option Half} {t : TagTransmitter} {bs : List Byte} {n : Nat}

theorem take_succ_eq_append_byteAt (h : n < bs.length) : bs.take (n + 1) = bs.take n ++ [byteAt bs n] := by
  rw [List.take_succ_eq_append_getElem h, byteAt, List.getD_eq_getElem _ _ h]

theorem cycleAfter_succ (h : n < bs.length) :
    cycleAfter timing identity t bs (n + 1) =
      cycleNext timing identity n (byteAt bs n) (cycleAfter timing identity t bs n) := by
  have hlen : (bs.take n).length = n := List.length_take_of_le h.le
  rw [cycleAfter, take_succ_eq_append_byteAt h, cycleRun, List.zipIdx_append, List.foldl_append, hlen, Nat.zero_add]
  rfl

theorem cycleAfter_length : cycleAfter timing identity t bs bs.length = cycleRun timing identity t bs := by
  rw [cycleAfter, List.take_length]

/-- The latched values stay through a cycle (R32). -/
theorem cycleAfter_latched (h : n ≤ bs.length) : (cycleAfter timing identity t bs n).latched = t.latched := by
  induction n with
  | zero => rfl
  | succ n ih => rw [cycleAfter_succ h, cycleNext_latched, ih (Nat.le_of_succ_le h)]

/-- The decision follows bytes 0 and 16 (R34). -/
theorem cycleAfter_decision (h : n < bs.length) :
    (cycleAfter timing identity t bs (n + 1)).decision = decisionBy identity bs n := by
  induction n with
  | zero => rw [cycleAfter_succ h]; rfl
  | succ n ih =>
    rw [cycleAfter_succ h, cycleNext_decision, ih (Nat.lt_of_succ_lt h), decisionAfter_decisionBy]

theorem cycleTag_length : (cycleTag timing identity t bs).length = 32 := by simp [cycleTag]

theorem byteAt_cycleTag (h : n < 32) : byteAt (cycleTag timing identity t bs) n = cycleOut timing identity t bs n := by
  rw [byteAt, List.getD_eq_getElem _ _ (cycleTag_length ▸ h)]
  simp [cycleTag]

theorem cycleTag_take (h : n ≤ 32) :
    (cycleTag timing identity t bs).take n = (List.range n).map (cycleOut timing identity t bs) := by
  rw [cycleTag, ← List.map_take, List.take_range, Nat.min_eq_left h]

theorem cycleAfter_emitted (he : t.emitted = []) (h : n ≤ bs.length) :
    (cycleAfter timing identity t bs n).emitted = (List.range n).map (cycleOut timing identity t bs) := by
  induction n with
  | zero => exact he
  | succ n ih =>
    rw [cycleAfter_succ h, cycleNext_emitted, ih (Nat.le_of_succ_le h), List.range_succ, List.map_append]
    rfl

/-- The check over the received bytes runs up to byte 29 (R35). -/
theorem cycleAfter_receivedCheck (hc : t.receivedCheck = 0xFFFF) (h : n ≤ bs.length) :
    (cycleAfter timing identity t bs n).receivedCheck = checkOf (bs.take (min n 30)) := by
  induction n with
  | zero => exact hc
  | succ n ih =>
    rw [cycleAfter_succ h, cycleNext_receivedCheck, ih (Nat.le_of_succ_le h)]
    split
    · next hn =>
      rw [Nat.min_eq_left hn.le, Nat.min_eq_left hn, take_succ_eq_append_byteAt h, checkOf_append_byte]
    · next hn => rw [Nat.min_eq_right (by omega), Nat.min_eq_right (by omega)]

/-- The check over the emitted bytes runs up to byte 29 (R35). -/
theorem cycleAfter_emittedCheck (hc : t.emittedCheck = 0xFFFF) (h : n ≤ bs.length) :
    (cycleAfter timing identity t bs n).emittedCheck =
      checkOf ((List.range (min n 30)).map (cycleOut timing identity t bs)) := by
  induction n with
  | zero => exact hc
  | succ n ih =>
    rw [cycleAfter_succ h, cycleNext_emittedCheck, ih (Nat.le_of_succ_le h)]
    split
    · next hn =>
      rw [Nat.min_eq_left hn.le, Nat.min_eq_left hn, List.range_succ, List.map_append]
      exact (checkOf_append_byte ..).symm
    · next hn => rw [Nat.min_eq_right (by omega), Nat.min_eq_right (by omega)]

/-- Both checks stand still from byte 30 on (R35). -/
theorem cycleAfter_finalChecks (hrc : t.receivedCheck = 0xFFFF) (hec : t.emittedCheck = 0xFFFF) (h30 : 30 ≤ n)
    (h : n ≤ bs.length) :
    (cycleAfter timing identity t bs n).receivedCheck = checkOf (bs.take 30) ∧
    (cycleAfter timing identity t bs n).emittedCheck =
      checkOf ((cycleTag timing identity t bs).take 30) := by
  rw [cycleAfter_receivedCheck hrc h, cycleAfter_emittedCheck hec h, Nat.min_eq_right h30, cycleTag_take (by decide)]
  exact ⟨rfl, rfl⟩

/-- Whether the high byte of the received check was right is noted at byte 30 (R35). -/
theorem cycleAfter_highRight (h : 30 < bs.length) :
    (cycleAfter timing identity t bs 31).highRight =
      (byteAt bs 30 == highByte (cycleAfter timing identity t bs 30).receivedCheck) := by
  rw [cycleAfter_succ h]
  rfl

/-- The record of a cycle emitted whole (R37). -/
theorem cycleRun_completed (hl : bs.length = 32) (he : t.emitted = []) :
    (cycleRun timing identity t bs).completed =
      some { source := sourceOf timing t.latched.role (decisionBy identity bs 31)
             bytes := cycleTag timing identity t bs } := by
  have hlast : 31 < bs.length := by omega
  have hrun : cycleRun timing identity t bs = cycleAfter timing identity t bs (31 + 1) := by
    rw [← cycleAfter_length, hl]
  have hcompleted : (cycleAfter timing identity t bs (31 + 1)).completed =
      some { source := sourceOf timing (cycleAfter timing identity t bs 31).latched.role
               (cycleAfter timing identity t bs (31 + 1)).decision
             bytes := (cycleAfter timing identity t bs (31 + 1)).emitted } := by
    rw [cycleAfter_succ hlast]
    rfl
  rw [hrun, hcompleted, cycleAfter_latched hlast.le, cycleAfter_decision hlast, cycleAfter_emitted he hlast]
  rfl

/-- A cycle emitted whole is recorded with the bytes that it emits (R37). -/
theorem cycleRun_records {source : TagSource} {out : List Byte} (hl : bs.length = 32) (he : t.emitted = [])
    (hs : sourceOf timing t.latched.role (decisionBy identity bs 31) = source) (ho : out.length = 32)
    (hb : ∀ p, p < 32 → cycleOut timing identity t bs p = byteAt out p) :
    (cycleRun timing identity t bs).completed = some { source := source, bytes := out } := by
  have hout : cycleTag timing identity t bs = out := by
    refine List.ext_getElem (cycleTag_length.trans ho.symm) fun p hp hp' => ?_
    have hbyte := (byteAt_cycleTag (ho ▸ hp')).trans (hb p (ho ▸ hp'))
    rwa [byteAt, byteAt, List.getD_eq_getElem _ _ hp, List.getD_eq_getElem _ _ hp'] at hbyte
  rw [cycleRun_completed hl he, hs, hout]

/-! ## Cycles that are not stamped -/

/-- In LOCAL, 00h where the tag is not originated (R33). -/
theorem cycleOut_local (h : n < bs.length) (hr : t.latched.role ≠ .originate) :
    cycleOut .localTimed identity t bs n = 0 := by
  rw [cycleOut, cycleByte_local, cycleAfter_latched h.le, if_neg hr]

/-- An originated tag goes out in either timing source (R36). -/
theorem cycleOut_originate (h : n < bs.length) (hr : t.latched.role = .originate) :
    cycleOut timing identity t bs n = byteAt (originTag identity t.latched) n := by
  unfold cycleOut cycleByte
  rw [cycleAfter_latched h.le, hr]

theorem cycleOut_carry (h : n < bs.length) (hr : t.latched.role = .carry) :
    cycleOut .follow identity t bs n = byteAt bs n := by
  unfold cycleOut cycleByte
  rw [cycleAfter_latched h.le, hr]

/-- A STAMP slot emits by the decision that stands once the byte has been received (R34). -/
theorem cycleOut_stamp (h : n < bs.length) (hr : t.latched.role = .stamp) :
    cycleOut .follow identity t bs n = stampByte identity (cycleAfter .follow identity t bs n) n (byteAt bs n) := by
  unfold cycleOut cycleByte
  rw [cycleAfter_latched h.le, hr]

theorem cycleOut_stamped {c : Nat} (h : n < bs.length) (hr : t.latched.role = .stamp)
    (hd : decisionBy identity bs n = .stamped c) :
    cycleOut .follow identity t bs n =
      stampedByte (identity.getD 0) (cycleAfter .follow identity t bs n) c n (byteAt bs n) := by
  rw [cycleOut_stamp h hr, stampByte, ← cycleNext_decision .follow, ← cycleAfter_succ h, cycleAfter_decision h, hd]

theorem cycleOut_passed (h : n < bs.length) (hr : t.latched.role = .stamp)
    (hd : ∀ c, decisionBy identity bs n ≠ .stamped c) : cycleOut .follow identity t bs n = byteAt bs n := by
  rw [cycleOut_stamp h hr, stampByte, ← cycleNext_decision .follow, ← cycleAfter_succ h, cycleAfter_decision h]
  split
  · next c hc => exact absurd hc (hd c)
  · rfl

/-- A tag is not stamped without an identity, with another kind or with a count above 6 (R34). -/
theorem decisionBy_ne_stamped (h : identity = none ∨ byteAt bs 0 ≠ 0x5C ∨ 6 < (byteAt bs 16).toNat) (c : Nat) :
    decisionBy identity bs n ≠ .stamped c := by
  unfold decisionBy
  split
  · exact fun hc => by cases hc
  · next hk =>
    split
    · exact fun hc => by cases hc
    · rw [if_pos ((or_assoc.mpr h).resolve_left hk)]
      exact fun hc => by cases hc

theorem sourceOf_stamp_of_ne {d : StampDecision} (h : ∀ c, d ≠ .stamped c) : sourceOf .follow .stamp d = .carried := by
  cases d with
  | stamped c => exact absurd rfl (h c)
  | undecided => rfl
  | candidate => rfl
  | carried => rfl
  | carriedTail => rfl

/-- A whole cycle of 00h is recorded as IDLE (R33, R37). -/
theorem cycleRun_idle (hl : bs.length = 32) (he : t.emitted = []) (hr : t.latched.role ≠ .originate) :
    (cycleRun .localTimed identity t bs).completed = some { source := .idle, bytes := List.replicate 32 0 } := by
  refine cycleRun_records hl he ?_ List.length_replicate fun p hp => ?_
  · cases h : t.latched.role with
    | originate => exact absurd h hr
    | carry => rfl
    | stamp => rfl
  · rw [cycleOut_local (hl ▸ hp) hr, byteAt, List.getD_replicate _ hp]

end

/-- Settles O23: by the role. -/
theorem wholeCyclesThatAreNotStamped : Obligations.WholeCyclesThatAreNotStamped := by
  intro identity t bs hl _ he
  refine ⟨fun hr => ⟨?_, ?_⟩, fun hr => ⟨fun h => ?_, ?_⟩, fun hr timing => ?_⟩
  · exact cycleRun_records hl he (by rw [hr]; rfl) hl fun p hp => cycleOut_carry (hl ▸ hp) hr
  · exact cycleRun_idle hl he (by rw [hr]; decide)
  · refine cycleRun_records hl he ?_ hl fun p hp => cycleOut_passed (hl ▸ hp) hr (decisionBy_ne_stamped h)
    rw [hr, sourceOf_stamp_of_ne (decisionBy_ne_stamped h)]
  · exact cycleRun_idle hl he (by rw [hr]; decide)
  · exact cycleRun_records hl he (by rw [hr]; rfl) rfl fun p hp => cycleOut_originate (hl ▸ hp) hr

/-! ## Stamped tags -/

/-- From byte 16 to byte 29 a stamped tag has its count, the overflow flag and this node's number written (R34). -/
theorem stampedByte_body (node : Half) (t : TagTransmitter) {c p : Nat} (b : Byte) (h : 16 ≤ p) (h' : p < 30) :
    stampedByte node t c p b =
      if p = 16 then BitVec.ofNat 8 (min 6 (c + 1))
      else if c = 6 ∧ p = 17 then b ||| 1
      else if c < 6 ∧ p = 18 + 2 * c then highByte node
      else if c < 6 ∧ p = 19 + 2 * c then lowByte node
      else b := by
  rw [stampedByte, if_neg (show p ≠ 30 by omega), if_neg (show p ≠ 31 by omega)]
  by_cases h17 : p = 17
  · subst h17
    rw [if_pos rfl, if_neg (show ¬ (c < 6 ∧ 17 = 18 + 2 * c) by omega),
      if_neg (show ¬ (c < 6 ∧ 17 = 19 + 2 * c) by omega)]
    simp only [and_true]
  · rw [if_neg h17, if_neg (show ¬ (c = 6 ∧ p = 17) from fun hp => h17 hp.2)]

theorem stampedByte_high (node : Half) (t : TagTransmitter) (c : Nat) (b : Byte) :
    stampedByte node t c 30 b =
      if b = highByte t.receivedCheck then highByte t.emittedCheck else highByte t.emittedCheck ^^^ 0xFF := rfl

theorem stampedByte_low (node : Half) (t : TagTransmitter) (c : Nat) (b : Byte) :
    stampedByte node t c 31 b =
      if t.highRight ∧ b = lowByte t.receivedCheck then lowByte t.emittedCheck
      else lowByte t.emittedCheck ^^^ 0xFF := rfl

/-- The decision on a tag that is stamped (R34). -/
theorem decisionBy_stamped {node : Half} {bs : List Byte} {c : Nat} (hk : byteAt bs 0 = 0x5C)
    (hc : (byteAt bs 16).toNat = c) (hc6 : c ≤ 6) (p : Nat) :
    decisionBy (some node) bs p = if p < 16 then .candidate else .stamped c := by
  rw [decisionBy, if_neg (by simp [hk]), hc, if_neg (show ¬ 6 < c by omega)]

/-! ### The check of a stamped tag -/

theorem highByte_xor (x y : Half) : highByte (x ^^^ y) = highByte x ^^^ highByte y := BitVec.extractLsb'_xor

theorem lowByte_xor (x y : Half) : lowByte (x ^^^ y) = lowByte x ^^^ lowByte y := BitVec.extractLsb'_xor

/-- A check whose bytes are inverted by the faults found in two bytes: as a whole it is a check with a mask, and it is
right exactly when both bytes were (R35). -/
theorem halfAt_of_inverted {out : List Byte} {i : Nat} {check : Half} {high low : Prop} [Decidable high] [Decidable low]
    (hh : byteAt out i = if high then highByte check else highByte check ^^^ 0xFF)
    (hl : byteAt out (i + 1) = if high ∧ low then lowByte check else lowByte check ^^^ 0xFF) :
    halfAt out i = check ^^^ (if high then (if low then 0x0000 else 0x00FF) else 0xFFFF) ∧
      (halfAt out i = check ↔ high ∧ low) := by
  rw [halfAt_eq_iff, halfAt_eq_iff, hh, hl, highByte_xor, lowByte_xor]
  by_cases h : high
  · by_cases l : low
    · simp [h, l, highByte, lowByte]
    · simp [h, l, highByte, lowByte]
  · simp [h, highByte, lowByte]

section
variable {node : Half} {t : TagTransmitter} {bs : List Byte} {c : Nat}

theorem cycleOut_stamped_body {p : Nat} (hl : bs.length = 32) (hr : t.latched.role = .stamp) (hk : byteAt bs 0 = 0x5C)
    (hc : (byteAt bs 16).toNat = c) (hc6 : c ≤ 6) (hp : p < 30) :
    cycleOut .follow (some node) t bs p =
      if p = 16 then BitVec.ofNat 8 (min 6 (c + 1))
      else if c = 6 ∧ p = 17 then byteAt bs 17 ||| 1
      else if c < 6 ∧ p = 18 + 2 * c then highByte node
      else if c < 6 ∧ p = 19 + 2 * c then lowByte node
      else byteAt bs p := by
  have hd := decisionBy_stamped (node := node) hk hc hc6 p
  by_cases h16 : p < 16
  · rw [cycleOut_passed (by omega) hr (by rw [hd, if_pos h16]; exact fun _ h => by cases h)]
    rw [if_neg (by omega), if_neg (by omega), if_neg (by omega), if_neg (by omega)]
  · rw [cycleOut_stamped (by omega) hr (hd.trans (if_neg h16)), stampedByte_body _ _ _ (by omega) hp]
    split
    · rfl
    · split
      · next h => rw [h.2]
      · rfl

/-- The high byte of the emitted check is right when that of the received check was (R35). -/
theorem cycleOut_stamped_high (hl : bs.length = 32) (hr : t.latched.role = .stamp) (hrc : t.receivedCheck = 0xFFFF)
    (hec : t.emittedCheck = 0xFFFF) (hd : decisionBy (some node) bs 30 = .stamped c) :
    cycleOut .follow (some node) t bs 30 =
      if byteAt bs 30 = highByte (checkOf (bs.take 30)) then
        highByte (checkOf ((cycleTag .follow (some node) t bs).take 30))
      else highByte (checkOf ((cycleTag .follow (some node) t bs).take 30)) ^^^ 0xFF := by
  obtain ⟨hreceived, hemitted⟩ := cycleAfter_finalChecks (timing := .follow) (identity := some node) hrc hec (le_refl 30)
    (show 30 ≤ bs.length by omega)
  rw [cycleOut_stamped (by omega) hr hd, stampedByte_high, hreceived, hemitted]

/-- The low byte of the emitted check is right when the received check was (R35). -/
theorem cycleOut_stamped_low (hl : bs.length = 32) (hr : t.latched.role = .stamp) (hrc : t.receivedCheck = 0xFFFF)
    (hec : t.emittedCheck = 0xFFFF) (hd : decisionBy (some node) bs 31 = .stamped c) :
    cycleOut .follow (some node) t bs 31 =
      if byteAt bs 30 = highByte (checkOf (bs.take 30)) ∧ byteAt bs 31 = lowByte (checkOf (bs.take 30)) then
        lowByte (checkOf ((cycleTag .follow (some node) t bs).take 30))
      else lowByte (checkOf ((cycleTag .follow (some node) t bs).take 30)) ^^^ 0xFF := by
  obtain ⟨hnoted, _⟩ := cycleAfter_finalChecks (timing := .follow) (identity := some node) hrc hec (le_refl 30)
    (show 30 ≤ bs.length by omega)
  obtain ⟨hreceived, hemitted⟩ := cycleAfter_finalChecks (timing := .follow) (identity := some node) hrc hec
    (show 30 ≤ 31 by decide) (show 31 ≤ bs.length by omega)
  rw [cycleOut_stamped (by omega) hr hd, stampedByte_low, cycleAfter_highRight (by omega), hnoted, hreceived, hemitted]
  simp only [beq_iff_eq]

end

/-- Settles O22: the bytes of the body, then the check that follows from them. -/
theorem stampingKeepsTheVerdictOfTheCheck : Obligations.StampingKeepsTheVerdictOfTheCheck := by
  intro node t bs c hl hr _ hrc hec he hk hc hc6
  have hd := decisionBy_stamped (node := node) hk hc hc6
  have hverdict := halfAt_of_inverted
    ((byteAt_cycleTag (by decide)).trans (cycleOut_stamped_high hl hr hrc hec (hd 30)))
    ((byteAt_cycleTag (by decide)).trans (cycleOut_stamped_low hl hr hrc hec (hd 31)))
  refine ⟨cycleTag .follow (some node) t bs, ?_, cycleTag_length, fun p hp => ?_, hverdict.1, ?_⟩
  · rw [cycleRun_completed hl he, hr, hd]
    rfl
  · rw [byteAt_cycleTag (by omega), cycleOut_stamped_body hl hr hk hc hc6 hp]
  · rw [hverdict.2, halfAt_eq_iff]

end Sys2Proof.Machine
end

section
/-! PROOFS. The completed cycle (O25) and the restart at each block (O42). -/

namespace Sys2Proof.Machine

/-! ## Completed cycles -/

theorem recordEmitted_some {t : TagTransmitter} {e : EmittedTag} (h : t.completed = some e) :
    recordEmitted t = { t with lastEmitted := some e, completed := none } := by
  rw [recordEmitted, h]

theorem recordEmitted_none {t : TagTransmitter} (h : t.completed = none) : recordEmitted t = t := by
  rw [recordEmitted, h]

/-- Settles O25. -/
theorem completedCyclesReplaceTheRecord : Obligations.CompletedCyclesReplaceTheRecord := by
  intro s hr
  have hslot := (completeCycle_spec s).2
  refine ⟨completeCycle s, act_running hr completeCycle, rfl, fun hf => ?_, fun f hf => ?_,
    fun i => ⟨fun e he => ?_, fun hn => ?_⟩⟩
  · exact Option.map_eq_none_iff.mpr hf
  · show s.output.line.frame.map _ = _
    rw [hf]
    rfl
  · rw [hslot, recordEmitted_some he]
  · rw [hslot, recordEmitted_none hn]

/-! ## The restart at a context -/

theorem beingChecked_iff (c : CheckState) : beingChecked c = true ↔ c ≠ .idle ∧ c ≠ .window := by
  cases c <;> decide

/-- The slot of a context that takes the restart: the restart has been taken, and no finding is pending (R97, R103). -/
def restartTaken (sl : SlotState) : SlotState :=
  { sl with
    context := { sl.context with findingPending := false }
    inFlight := { sl.inFlight with restarts := sl.inFlight.restarts - 1 } }

theorem restartSlot_checked {sl : SlotState} (h : beingChecked sl.context.state = true) :
    restartSlot false { sl with inFlight := { sl.inFlight with restarts := sl.inFlight.restarts - 1 } } =
      enterSettlingAfresh (restartTaken sl) := if_pos h

theorem restartSlot_unchecked {sl : SlotState} (h : ¬ beingChecked sl.context.state = true) :
    restartSlot false { sl with inFlight := { sl.inFlight with restarts := sl.inFlight.restarts - 1 } } =
      restartTaken sl := if_neg h

/-- A restart that waits at a context is taken there, as one of a slot without a record in the queue (R97, R103). -/
theorem execContextRestart_eq {s : State} {i : Slot} (hr : s.resetHeld = false)
    (hw : 0 < s.slots[i].inFlight.restarts)
    (hq : 0 < s.restartsDue.reportUnit ∨ hasRecord s.report.queue i = false) :
    exec (.contextRestart i) s = .next (s.modSlot i fun sl =>
      restartSlot false { sl with inFlight := { sl.inFlight with restarts := sl.inFlight.restarts - 1 } }) := by
  have hqueued : (s.restartsDue.reportUnit == 0 && hasRecord s.report.queue i) = false := by
    rcases hq with h | h
    · simp [Nat.pos_iff_ne_zero.mp h]
    · simp [h]
  show execContextRestart i s = _
  rw [execContextRestart, act_running hr, if_neg (Nat.pos_iff_ne_zero.mp hw), hqueued]

/-! ## The restart at the blocks -/

theorem execTagReceiverRestart_eq {s : State} (hr : s.resetHeld = false) (hd : 0 < s.restartsDue.tagReceiver) :
    exec .tagReceiverRestart s = .next { s.mapSlots (fun _ sl => { sl with tag := .reset }) with
      restartsDue := { s.restartsDue with tagReceiver := s.restartsDue.tagReceiver - 1 } } := by
  show execTagReceiverRestart s = _
  rw [execTagReceiverRestart, act_running hr, if_neg (Nat.pos_iff_ne_zero.mp hd)]

theorem execLineTransmitterRestart_eq {s : State} (hr : s.resetHeld = false)
    (hd : 0 < s.restartsDue.lineTransmitter) :
    exec .lineTransmitterRestart s = .next
      { s.mapSlots (fun _ sl => { sl with tx := { sl.tx with lastEmitted := none } }) with
        restartsDue := { s.restartsDue with lineTransmitter := s.restartsDue.lineTransmitter - 1 } } := by
  show execLineTransmitterRestart s = _
  rw [execLineTransmitterRestart, act_running hr, if_neg (Nat.pos_iff_ne_zero.mp hd)]

theorem execProbeEngineRestart_eq {s : State} (hr : s.resetHeld = false) (hd : 0 < s.restartsDue.probeEngine) :
    exec .probeEngineRestart s = .next { s.mapSlots (fun _ sl => { sl with probe := .reset }) with
      probe := { ProbeEngine.reset with
        interval := s.probe.interval, timeout := s.probe.timeout, boundariesDue := s.probe.boundariesDue }
      restartsDue := { s.restartsDue with probeEngine := s.restartsDue.probeEngine - 1 } } := by
  show execProbeEngineRestart s = _
  rw [execProbeEngineRestart, act_running hr, if_neg (Nat.pos_iff_ne_zero.mp hd)]

theorem execReportUnitRestart_eq {s : State} (hr : s.resetHeld = false) (hd : 0 < s.restartsDue.reportUnit) :
    exec .reportUnitRestart s = .next
      { s.mapSlots (fun _ sl => { sl with context := { sl.context with findingPending := false } }) with
        report := { s.report with queue := [] }
        restartsDue := { s.restartsDue with reportUnit := s.restartsDue.reportUnit - 1 } } := by
  show execReportUnitRestart s = _
  rw [execReportUnitRestart, act_running hr, if_neg (Nat.pos_iff_ne_zero.mp hd)]

/-- Settles O42: the context by its state, then each block. -/
theorem restartReachesEachBlock : Obligations.RestartReachesEachBlock := by
  refine ⟨fun s i hr hw hq => ?_, fun s hr => ⟨fun hd => ?_, fun hd => ?_, fun hd => ?_, fun hd => ?_⟩⟩
  · have hone := slotBecomes_modSlot s i fun sl =>
      restartSlot false { sl with inFlight := { sl.inFlight with restarts := sl.inFlight.restarts - 1 } }
    refine ⟨_, execContextRestart_eq hr hw hq, hone.1, fun h => ?_, fun hi hwin => ?_⟩
    · refine hone.2.trans (restartSlot_unchecked fun hc => ?_)
      obtain ⟨hi, hwin⟩ := (beingChecked_iff _).mp hc
      exact h.elim hi hwin
    · exact hone.2.trans (restartSlot_checked ((beingChecked_iff _).mpr ⟨hi, hwin⟩))
  · refine ⟨_, execTagReceiverRestart_eq hr hd, rfl, fun i => ?_⟩
    dsimp only
    rw [State.mapSlots_slot]
    rfl
  · refine ⟨_, execLineTransmitterRestart_eq hr hd, rfl, fun i => ?_⟩
    dsimp only
    rw [State.mapSlots_slot]
  · refine ⟨_, execProbeEngineRestart_eq hr hd, rfl, fun k => Vector.getElem_replicate k.isLt, fun i => ?_⟩
    dsimp only
    rw [State.mapSlots_slot]
    rfl
  · refine ⟨_, execReportUnitRestart_eq hr hd, rfl, fun i => ?_⟩
    dsimp only
    rw [State.mapSlots_slot]

end Sys2Proof.Machine
end

section
/-! PROOFS. The trail map and the route pool: what every command leaves of them, for the edit gate (O55) and the step
invariant (O57). First one slot, then the operations that leave the trail map, then the four commands that edit it. -/

namespace Sys2Proof.Machine

/-! ## What a slot keeps -/

/-- Of a slot's expectations only the epochs and the baselines may differ, which are not under the edit gate (R43). -/
def SameExpectations (a b : SlotMap) : Prop :=
  b = { a with
    originEpoch := b.originEpoch, expectedEpoch := b.expectedEpoch
    workingBaseline := b.workingBaseline, protectBaseline := b.protectBaseline }

theorem SameExpectations.refl (m : SlotMap) : SameExpectations m m := rfl

theorem SameExpectations.of_eq {a b : SlotMap} (h : b = a) : SameExpectations a b := h ▸ .refl b

theorem SameExpectations.trans {a b c : SlotMap} (h : SameExpectations a b) (g : SameExpectations b c) :
    SameExpectations a c := by unfold SameExpectations at *; rw [g, h]

theorem SameExpectations.rxRole {a b : SlotMap} (h : SameExpectations a b) : b.rxRole = a.rxRole := by rw [h]
theorem SameExpectations.txRole {a b : SlotMap} (h : SameExpectations a b) : b.txRole = a.txRole := by rw [h]
theorem SameExpectations.entry {a b : SlotMap} (h : SameExpectations a b) : b.entry = a.entry := by rw [h]
theorem SameExpectations.route {a b : SlotMap} (h : SameExpectations a b) : b.route = a.route := by rw [h]

theorem writeBaseline_sameExpectations (m : SlotMap) (side : Protect) (v : Nat) :
    SameExpectations m (writeBaseline m side v) := by cases side <;> rfl

/-- A slot may be checked: its role is TERMINATE and its entry LOADED (R73). -/
def MayBeChecked (m : SlotMap) : Prop := m.rxRole = .terminate ∧ m.entry.isSome = true

theorem SameExpectations.mayBeChecked_iff {a b : SlotMap} (h : SameExpectations a b) :
    MayBeChecked b ↔ MayBeChecked a := by rw [MayBeChecked, MayBeChecked, h.rxRole, h.entry]

/-- A slot keeps its expectations, and it is being checked only if it was before or may be. -/
def SlotKept (a b : SlotState) : Prop :=
  SameExpectations a.map b.map ∧
  (beingChecked b.context.state = true → beingChecked a.context.state = true ∨ MayBeChecked a.map)

theorem SlotKept.expectations {a b : SlotState} (h : SlotKept a b) : SameExpectations a.map b.map := h.1

theorem SlotKept.checked {a b : SlotState} (h : SlotKept a b) (hb : beingChecked b.context.state = true) :
    beingChecked a.context.state = true ∨ MayBeChecked a.map := h.2 hb

/-- Neither the expectations nor the state of the check differs. -/
theorem SlotKept.of_state {a b : SlotState} (hm : SameExpectations a.map b.map)
    (hc : b.context.state = a.context.state) : SlotKept a b := ⟨hm, fun h => .inl (hc ▸ h)⟩

/-- A slot that is being checked may take any state of a check. -/
theorem SlotKept.of_checked {a b : SlotState} (hm : SameExpectations a.map b.map)
    (ha : beingChecked a.context.state = true) : SlotKept a b := ⟨hm, fun _ => .inl ha⟩

/-- What replaces other parts of a slot than its trail map and its context keeps it. -/
theorem SlotKept.of_eq {a b : SlotState} (hm : b.map = a.map) (hc : b.context = a.context) : SlotKept a b :=
  .of_state (.of_eq hm) (by rw [hc])

/-- Taking an event out of those in flight is no part of what a slot keeps. -/
theorem SlotKept.of_taken {a b : SlotState} {q : InFlight} (h : SlotKept { a with inFlight := q } b) : SlotKept a b := h

theorem SlotKept.refl (a : SlotState) : SlotKept a a := .of_state (.refl _) rfl

theorem SlotKept.trans {a b c : SlotState} (h : SlotKept a b) (g : SlotKept b c) : SlotKept a c := by
  refine ⟨h.expectations.trans g.expectations, fun hc => ?_⟩
  rcases g.checked hc with hb | hb
  · exact h.checked hb
  · exact .inr (h.expectations.mayBeChecked_iff.mp hb)

/-! ### Events at a context -/

/-- A cycle report leaves the state outside SETTLING, SOAKING and VERIFIED (R76, R94). -/
theorem takeReport_kept (inp : CheckInputs) (i : Slot) (r : CycleReport) (sl : SlotState) :
    SlotKept sl (takeReport inp i r sl) := by
  have map_eq := SameExpectations.of_eq (takeReport_only inp i r sl).map
  cases hc : sl.context.state
  case settling => exact .of_checked map_eq (by rw [hc]; rfl)
  case soaking => exact .of_checked map_eq (by rw [hc]; rfl)
  case verified => exact .of_checked map_eq (by rw [hc]; rfl)
  all_goals exact .of_state map_eq (by rw [takeReport, hc]; exact hc)

/-- Stream loss leaves the state outside SETTLING, SOAKING and VERIFIED (R75). -/
theorem takeStreamLoss_kept (inp : CheckInputs) (i : Slot) (sl : SlotState) :
    SlotKept sl (takeStreamLoss inp i sl) := by
  have map_eq := SameExpectations.of_eq (takeStreamLoss_only inp i sl).map
  cases hc : sl.context.state
  case settling => exact .of_checked map_eq (by rw [hc]; rfl)
  case soaking => exact .of_checked map_eq (by rw [hc]; rfl)
  case verified => exact .of_checked map_eq (by rw [hc]; rfl)
  all_goals exact .of_state map_eq (by rw [takeStreamLoss, hc]; exact hc)

theorem enterFailed_sameExpectations (inp : CheckInputs) (i : Slot) (cause : Cause) (sl : SlotState) :
    SameExpectations sl.map (enterFailed inp i cause sl).map := .of_eq (enterFailed_only inp i cause sl).map

/-- Soak end writes at most a baseline (R51, R88). -/
theorem decideSoakEnd_sameExpectations (inp : CheckInputs) (i : Slot) (sl : SlotState) :
    SameExpectations sl.map (decideSoakEnd inp i sl).map := by
  unfold decideSoakEnd
  dsimp only
  split
  · exact .refl _
  · split
    · exact enterFailed_sameExpectations ..
    · split
      · exact writeBaseline_sameExpectations ..
      · split
        · exact enterFailed_sameExpectations ..
        · exact .refl _
      · exact .refl _

theorem boundaryInSettling_sameExpectations (inp : CheckInputs) (i : Slot) (sl : SlotState) :
    SameExpectations sl.map (boundaryInSettling inp i sl).map := by
  unfold boundaryInSettling
  dsimp only
  split
  · exact enterFailed_sameExpectations inp i _ { sl with context := _ }
  · exact .refl _

theorem boundaryInSoaking_sameExpectations (inp : CheckInputs) (i : Slot) (sl : SlotState) :
    SameExpectations sl.map (boundaryInSoaking inp i sl).map := by
  unfold boundaryInSoaking
  dsimp only
  split
  · exact decideSoakEnd_sameExpectations inp i { sl with context := _ }
  · exact .refl _

theorem boundaryInVerified_sameExpectations (inp : CheckInputs) (i : Slot) (sl : SlotState) :
    SameExpectations sl.map (boundaryInVerified inp i sl).map := by
  unfold boundaryInVerified
  dsimp only
  split
  · split
    · exact enterFailed_sameExpectations inp i _ { sl with context := _ }
    · exact .refl _
  · exact .refl _

/-- A local period boundary acts in SETTLING, SOAKING and VERIFIED alone (R76, R94). -/
theorem takeBoundary_kept (inp : CheckInputs) (i : Slot) (sl : SlotState) :
    SlotKept sl (takeBoundary inp i sl) := by
  unfold takeBoundary
  split
  case h_1 hc => exact .of_checked (boundaryInSettling_sameExpectations ..) (by rw [hc]; rfl)
  case h_2 hc => exact .of_checked (boundaryInSoaking_sameExpectations ..) (by rw [hc]; rfl)
  case h_3 hc => exact .of_checked (boundaryInVerified_sameExpectations ..) (by rw [hc]; rfl)
  all_goals exact .refl sl

theorem strikeTest_sameExpectations (inp : CheckInputs) (i : Slot) (shift : Int) (sl : SlotState) :
    SameExpectations sl.map (strikeTest inp i shift sl).map := by
  simp only [strikeTest]
  generalize (if shiftFails shift (slotProfile inp sl.map).tolerance then sl.context.strikes + 1 else 0) = strikes
  split
  · exact enterFailed_sameExpectations inp i _ { sl with context := _ }
  · exact .refl _

theorem learnBaseline_sameExpectations (inp : CheckInputs) (average : Nat) (sl : SlotState) :
    SameExpectations sl.map (learnBaseline inp average sl).map := by
  unfold learnBaseline
  split
  · exact writeBaseline_sameExpectations ..
  · exact .refl _

/-- An accepted sample acts in VERIFIED alone (R92). -/
theorem takeSample_kept (inp : CheckInputs) (i : Slot) (sl : SlotState) : SlotKept sl (takeSample inp i sl) := by
  unfold takeSample
  split
  case h_1 hc =>
    have hchecked : beingChecked sl.context.state = true := by rw [hc]; rfl
    split
    · exact .refl sl
    · exact .of_checked (strikeTest_sameExpectations ..) hchecked
    · exact .of_checked (learnBaseline_sameExpectations ..) hchecked
  all_goals exact .refl sl

/-- OPEN WINDOW leaves the slot in WINDOW, where it is not checked (R77). -/
theorem openSlot_kept (inp : CheckInputs) (sl : SlotState) : SlotKept sl (openSlot inp sl) := by
  unfold openSlot
  split
  case h_1 => exact .refl sl
  all_goals exact ⟨.refl _, fun h => by cases h⟩

/-- CLOSE WINDOW begins a check only at a slot that may be checked (R78). -/
theorem closeSlot_kept (epoch : Half) (sl : SlotState) : SlotKept sl (closeSlot epoch sl) := by
  unfold closeSlot
  dsimp only
  split
  · split
    · next h => exact ⟨rfl, fun _ => .inr h⟩
    · exact ⟨rfl, fun h => by cases h⟩
  · exact .refl sl

/-- The restart begins a check afresh only at a slot that is being checked (R103). -/
theorem restartSlot_kept (stillQueued : Bool) (sl : SlotState) : SlotKept sl (restartSlot stillQueued sl) := by
  unfold restartSlot
  dsimp only
  split
  · next h => exact .of_checked (.refl _) h
  · exact .of_state (.refl _) rfl

/-! ## What leaves the trail map alone -/

/-- The free list is the same and every slot is kept. -/
def TrailKept (s t : State) : Prop := t.freeHops = s.freeHops ∧ ∀ i : Slot, SlotKept s.slots[i] t.slots[i]

theorem TrailKept.freeHops {s t : State} (h : TrailKept s t) : t.freeHops = s.freeHops := h.1

theorem TrailKept.slot {s t : State} (h : TrailKept s t) (i : Slot) : SlotKept s.slots[i] t.slots[i] := h.2 i

theorem TrailKept.refl (s : State) : TrailKept s s := ⟨rfl, fun _ => .refl _⟩

theorem TrailKept.trans {s t u : State} (h : TrailKept s t) (g : TrailKept t u) : TrailKept s u :=
  ⟨g.freeHops.trans h.freeHops, fun i => (h.slot i).trans (g.slot i)⟩

/-- The trail map lies in the free list and the slots alone. -/
theorem TrailKept.congr {s t u : State} (h : TrailKept s t) (hf : u.freeHops = t.freeHops) (hs : u.slots = t.slots) :
    TrailKept s u :=
  ⟨hf.trans h.freeHops, fun i => by rw [hs]; exact h.slot i⟩

/-- One slot is replaced by a state that keeps it. -/
theorem TrailKept.of_set {s t : State} {i : Slot} {x : SlotState} (hf : t.freeHops = s.freeHops)
    (hs : t.slots = s.slots.set i x) (h : SlotKept s.slots[i] x) : TrailKept s t := by
  refine ⟨hf, fun j => ?_⟩
  rw [hs, show (s.slots.set i x)[j] = _ from State.modSlot_slot s i j fun _ => x]
  split
  · next hj => rw [hj]; exact h
  · exact .refl _

/-- Every slot is replaced by a state that keeps it. -/
theorem TrailKept.of_vectorOf {s t : State} {g : Slot → SlotState} (hf : t.freeHops = s.freeHops)
    (hs : t.slots = vectorOf g) (h : ∀ i : Slot, SlotKept s.slots[i] (g i)) : TrailKept s t :=
  ⟨hf, fun i => by rw [hs, vectorOf_get]; exact h i⟩

/-- An effect that depends on a condition keeps the trail map when it does so where the condition holds. -/
theorem TrailKept.when {s t : State} {p : Prop} [Decidable p] (h : TrailKept s t) :
    TrailKept s (if p then t else s) := by
  split
  · exact h
  · exact .refl s

theorem TrailKept.unless {s t : State} {p : Prop} [Decidable p] (h : TrailKept s t) :
    TrailKept s (if p then s else t) := by
  split
  · exact .refl s
  · exact h

/-! ### The probe engine -/

theorem rotationStep_trailKept (s : State) : TrailKept s (rotationStep s) := by
  unfold rotationStep
  split
  · exact .refl s
  · split
    · exact .refl s
    · exact .of_set rfl rfl (.of_eq rfl rfl)

theorem probeBoundary_trailKept (s : State) : TrailKept s (probeBoundary s) := by
  have counted (u : State) : TrailKept u (countInterval u) := by
    unfold countInterval
    split
    · exact rotationStep_trailKept { u with probe := _ }
    · exact .refl u
  have down (u : State) : TrailKept u (countdown u) := .of_vectorOf rfl rfl fun _ => .of_eq rfl rfl
  unfold probeBoundary
  exact (down { s with probe := _ }).trans (counted _)

theorem engineBoundary_trailKept (s : State) : TrailKept s (engineBoundary s) := .when (probeBoundary_trailKept s)

theorem matchedEcho_trailKept (s : State) (i : Slot) (launch : Stamp) (h : EchoHandoff) :
    TrailKept s (matchedEcho s i launch h) := by
  unfold matchedEcho
  dsimp only
  split
  · exact .refl s
  · split
    · exact .of_set rfl rfl (.of_eq rfl rfl)
    · exact .refl s

theorem takeEcho_trailKept (s : State) (i : Slot) (h : EchoHandoff) : TrailKept s (takeEcho s i h) := by
  have numbered (u : State) :
      TrailKept u (u.modSlot i fun sl => { sl with probe := { sl.probe with lastEcho := h.echoNumber } }) :=
    .of_set rfl rfl (.of_eq rfl rfl)
  unfold takeEcho
  dsimp only
  split
  · exact .refl s
  · split
    · exact (matchedEcho_trailKept ..).trans (numbered _)
    · refine TrailKept.trans (t := unmatchedEcho s i h) ?_ (numbered _)
      exact .unless (.refl s)

theorem takeHandoff_trailKept (s : State) (i : Slot) (h : EchoHandoff) : TrailKept s (takeHandoff s i h) :=
  .when ((takeEcho_trailKept s i h).trans (.of_set rfl rfl (.of_eq rfl rfl)))

theorem withdrawSlot_trailKept (s : State) (i : Slot) : TrailKept s (withdrawSlot s i) :=
  .of_set rfl rfl (.of_eq rfl rfl)

/-! ### Local period boundaries -/

theorem contextBoundary_trailKept (s : State) (i : Slot) : TrailKept s (contextBoundary s i) :=
  .when (.of_set rfl rfl (.of_taken (takeBoundary_kept ..)))

theorem boundaryAt_trailKept (target : BoundaryAt) (s : State) : TrailKept s (boundaryAt target s) := by
  cases target with
  | timebase => exact .unless (.of_vectorOf rfl rfl fun _ => .of_eq rfl rfl)
  | context i => exact contextBoundary_trailKept s i
  | probeEngine => exact engineBoundary_trailKept s

/-! ### The report unit, the management channel and the restart -/

theorem setPending_trailKept (s : State) (i : Slot) (b : Bool) : TrailKept s (setPending s i b) :=
  .of_set rfl rfl (.of_state (.refl _) rfl)

theorem takeFinding_trailKept (s : State) (f : Finding) : TrailKept s (takeFinding s f) := by
  unfold takeFinding
  dsimp only
  split
  · exact setPending_trailKept { s with report := _ } ..
  · exact .refl s

theorem startNotice_trailKept (s : State) (skip : Nat) : TrailKept s (startNotice s skip) := by
  unfold startNotice
  split
  · exact .refl s
  · split
    · exact (setPending_trailKept s _ false).congr rfl rfl
    · exact .refl s

theorem startBuffered_trailKept (s : State) (output : Side) (skip : Nat) :
    TrailKept s (startBuffered s output skip) := by
  unfold startBuffered
  split <;> exact .refl s

theorem endSending_trailKept (s : State) (output : Side) : TrailKept s (endSending s output) := by
  unfold endSending
  split
  · exact .refl s
  · dsimp only
    split
    · exact .refl s
    · exact .refl s
    · split <;> exact .refl s

theorem restartNow_trailKept (s : State) (side : Side) (sent : Nat) : TrailKept s (restartNow s side sent) :=
  .of_vectorOf rfl rfl fun _ => .of_eq rfl rfl

theorem takeEffect_trailKept (s : State) (side : Side) (sent : Nat) : TrailKept s (takeEffect s side sent) := by
  unfold takeEffect
  split
  · exact restartNow_trailKept ..
  · split
    · exact .refl s
    · split
      · exact restartNow_trailKept (placeLast s side _) side sent
      · exact .refl s

/-! ### Outputs and frames -/

/-- The line transmitter's record of every slot is replaced. -/
theorem TrailKept.of_tx {s t : State} {tx : Slot → TagTransmitter} (hf : t.freeHops = s.freeHops)
    (hs : t.slots = vectorOf fun i : Slot => { s.slots[i] with tx := tx i }) : TrailKept s t :=
  .of_vectorOf hf hs fun _ => .of_eq rfl rfl

theorem startLineFrame_trailKept (s : State) (timing : Timing) (sent : Nat) (f : OutFrame) :
    TrailKept s (startLineFrame s timing sent f) := by
  unfold startLineFrame
  dsimp only
  split
  · exact .refl s
  · split
    · exact .refl s
    · exact .of_tx rfl rfl

theorem startLocalFrame_trailKept (s : State) (output : Side) : TrailKept s (startLocalFrame s output) := by
  cases output with
  | line => exact startLineFrame_trailKept ..
  | drop => exact .refl s

theorem startCycle_trailKept (s : State) : TrailKept s (startCycle s) := by
  have latched : TrailKept s (latchCycle s) := .of_vectorOf rfl rfl fun _ => .of_eq rfl rfl
  unfold startCycle
  split
  · exact .refl s
  · split
    · exact latched.trans (.of_tx rfl rfl)
    · exact .refl s

theorem startOutputs_trailKept (s : State) : TrailKept s (startOutputs s) :=
  ((startLocalFrame_trailKept s .drop).trans (startLocalFrame_trailKept _ .line)).trans (startCycle_trailKept _)

theorem cutCycle_trailKept (s : State) (sent : Nat) : TrailKept s (cutCycle s sent) := .of_tx rfl rfl

theorem leaveFollow_trailKept (s : State) (output : Side) (sent : Nat) :
    TrailKept s (leaveFollow s output sent) :=
  (TrailKept.refl s).congr (leaveFollow_freeHops ..) (leaveFollow_slots ..)

theorem deliverSlot_kept (slipped : Bool) (p : Phase) (start : Option Stamp) (b : SlotBytes) (sl : SlotState) :
    SlotKept sl (deliverSlot slipped p start b sl) := by
  unfold deliverSlot
  dsimp only
  split <;> exact .of_eq rfl rfl

theorem deliverLine_trailKept (s : State) (j : Judgement) (p : Phase) (f : Frame) (sent : Nat) :
    TrailKept s (deliverLine s j p f sent) :=
  .of_vectorOf rfl rfl fun _ => deliverSlot_kept ..

theorem loseLine_trailKept (s : State) (sent : Nat) : TrailKept s (loseLine s sent) := by
  refine TrailKept.trans ?_ (leaveFollow_trailKept ..)
  exact .of_vectorOf rfl rfl fun _ => .of_eq rfl rfl

theorem deliverDrop_trailKept (s : State) (p : Phase) (f : Frame) (sent : Nat) :
    TrailKept s (deliverDrop s p f sent) := by
  unfold deliverDrop
  dsimp only
  refine TrailKept.trans ?_ (startLineFrame_trailKept ..)
  split
  · exact .refl s
  · exact cutCycle_trailKept { s with management := _ } sent

theorem loseDrop_trailKept (s : State) (sent : Nat) : TrailKept s (loseDrop s sent) := by
  unfold loseDrop
  dsimp only
  split
  · exact (cutCycle_trailKept { s with management := _ } sent).trans (leaveFollow_trailKept ..)
  · exact .refl s

theorem lineFrame_trailKept (s : State) (f : Frame) (sent : Nat) : TrailKept s (lineFrame s f sent) := by
  unfold lineFrame
  dsimp only
  split
  case h_4 => exact loseLine_trailKept { s with receiver := _ } sent
  all_goals exact deliverLine_trailKept { s with receiver := _ } ..

theorem dropFrame_trailKept (s : State) (f : Frame) (sent : Nat) : TrailKept s (dropFrame s f sent) := by
  unfold dropFrame
  dsimp only
  split
  case h_4 => exact loseDrop_trailKept { s with receiver := _ } sent
  all_goals exact deliverDrop_trailKept { s with receiver := _ } ..

theorem lockedFrame_trailKept (s : State) (side : Side) (f : Frame) (sent : Nat) :
    TrailKept s (lockedFrame s side f sent) := by
  cases side with
  | line => exact lineFrame_trailKept ..
  | drop => exact dropFrame_trailKept ..

/-! ### Requests -/

/-- What an owner's answer makes of the trail map is what taking the request makes of it: the rest of the event fills
the reply buffer (R158). -/
theorem serve_trail {P : State → State → Prop} {answer : State → List Byte → Answer}
    (hrefl : ∀ s, P s s) (hcongr : ∀ {s t u : State}, P s t → u.freeHops = t.freeHops → u.slots = t.slots → P s u)
    (h : ∀ s p, P s (answer s p).state) (s : State) (side : Side) (c : Command) : P s (serve s side c answer) := by
  cases hf : findRequest s side c with
  | none => rw [serve_none hf]; exact hrefl s
  | some r => rw [serve_state hf]; exact hcongr (h s r.payload) rfl rfl

theorem serve_trailKept {answer : State → List Byte → Answer} (h : ∀ s p, TrailKept s (answer s p).state) (s : State)
    (side : Side) (c : Command) : TrailKept s (serve s side c answer) :=
  serve_trail TrailKept.refl TrailKept.congr h s side c

theorem answerSetNodeIdentity_trailKept (s : State) (p : List Byte) :
    TrailKept s (answerSetNodeIdentity s p).state := by
  unfold answerSetNodeIdentity
  repeat' split
  all_goals exact .refl s

theorem answerOpenWindow_trailKept (s : State) (p : List Byte) : TrailKept s (answerOpenWindow s p).state := by
  unfold answerOpenWindow
  dsimp only
  split
  · exact .refl s
  · refine .of_vectorOf rfl rfl fun i => ?_
    dsimp only
    split
    · exact openSlot_kept ..
    · exact .refl _

theorem answerCloseWindow_trailKept (s : State) (p : List Byte) : TrailKept s (answerCloseWindow s p).state := by
  unfold answerCloseWindow
  dsimp only
  split
  · exact .refl s
  · refine .of_vectorOf rfl rfl fun i => ?_
    dsimp only
    split
    · exact closeSlot_kept ..
    · exact .refl _

theorem answerSetProfile_trailKept (s : State) (p : List Byte) : TrailKept s (answerSetProfile s p).state := by
  unfold answerSetProfile
  split <;> exact .refl s

theorem answerSetReporting_trailKept (s : State) (p : List Byte) : TrailKept s (answerSetReporting s p).state := by
  unfold answerSetReporting
  split <;> exact .refl s

theorem answerReverify_trailKept (s : State) (p : List Byte) : TrailKept s (answerReverify s p).state := by
  unfold answerReverify
  repeat' split
  case isTrue h => exact .of_set rfl rfl (.of_checked (.refl _) h)
  all_goals exact .refl s

theorem answerQueryTrail_trailKept (s : State) (p : List Byte) : TrailKept s (answerQueryTrail s p).state := by
  unfold answerQueryTrail
  split <;> exact .refl s

theorem answerQueryTag_trailKept (s : State) (p : List Byte) : TrailKept s (answerQueryTag s p).state := by
  unfold answerQueryTag
  repeat' split
  all_goals exact .refl s

theorem answerQueryRoute_trailKept (s : State) (p : List Byte) : TrailKept s (answerQueryRoute s p).state := by
  unfold answerQueryRoute
  split <;> exact .refl s

theorem serveStatus_trailKept (s : State) (side : Side) (block : Block) : TrailKept s (serveStatus s side block) := by
  unfold serveStatus
  split
  · exact .refl s
  · dsimp only
    split <;> exact .refl s

theorem clearItems_trailKept (s : State) (p : List Byte) (block : Block) : TrailKept s (clearItems s p block) := by
  cases block <;> exact .refl s

theorem serveClear_trailKept (s : State) (side : Side) (block : Block) : TrailKept s (serveClear s side block) := by
  unfold serveClear
  split
  · exact .refl s
  · next r _ =>
    have cleared : TrailKept s (if r.todo.contains block then clearItems s r.payload block else s) :=
      .when (clearItems_trailKept ..)
    dsimp only
    split <;> exact cleared.congr rfl rfl

/-! ## What edits the trail map -/

/-- An entry that measures delay stands on an ORIGINATE slot (R42). -/
def DelayStands (m : SlotMap) : Prop := measuresDelay m = true → m.txRole = .originate

/-- One slot, which is in WINDOW, has its map replaced: hops move between its route list and the free list alone, the
list stays within six hops and the entry's delay stays on an ORIGINATE slot. -/
structure SlotEdited (s t : State) (i : Slot) (m : SlotMap) : Prop where
  window : s.slots[i].context.state = .window
  slots : t.slots = s.slots.set i { s.slots[i] with map := m }
  hops : (t.freeHops ++ m.route.map Hop.index).Perm (s.freeHops ++ s.slots[i].map.route.map Hop.index)
  short : s.slots[i].map.route.length ≤ 6 → m.route.length ≤ 6
  delay : DelayStands s.slots[i].map → DelayStands m

/-- What a command other than a reset does to the trail map. -/
def TrailStep (s t : State) : Prop := TrailKept s t ∨ ∃ i m, SlotEdited s t i m

theorem TrailStep.refl (s : State) : TrailStep s s := .inl (.refl s)

theorem SlotEdited.congr {s t u : State} {i : Slot} {m : SlotMap} (h : SlotEdited s t i m)
    (hf : u.freeHops = t.freeHops) (hs : u.slots = t.slots) : SlotEdited s u i m :=
  ⟨h.window, hs.trans h.slots, by rw [hf]; exact h.hops, h.short, h.delay⟩

theorem TrailStep.congr {s t u : State} (h : TrailStep s t) (hf : u.freeHops = t.freeHops) (hs : u.slots = t.slots) :
    TrailStep s u := by
  rcases h with h | ⟨i, m, h⟩
  · exact .inl (h.congr hf hs)
  · exact .inr ⟨i, m, h.congr hf hs⟩

theorem serve_trailStep {answer : State → List Byte → Answer} (h : ∀ s p, TrailStep s (answer s p).state) (s : State)
    (side : Side) (c : Command) : TrailStep s (serve s side c answer) :=
  serve_trail TrailStep.refl TrailStep.congr h s side c

/-- A slot passes the edit gate in WINDOW alone (R43). -/
theorem editable_iff (s : State) (i : Slot) : editable s i = true ↔ s.slots[i].context.state = .window := by
  simp [editable]

/-- A slot that the edit gate does not stop is in WINDOW (R43). -/
theorem window_of_not_barred {s : State} {i : Slot} (h : ¬ (!editable s i) = true) :
    s.slots[i].context.state = .window := by
  rw [Bool.not_eq_true, Bool.not_eq_false'] at h
  exact (editable_iff s i).mp h

/-- Freed hops go onto the free list (R61). -/
theorem pushHops_perm (free : List (Fin 256)) (route : List Hop) :
    (pushHops free route).Perm (free ++ route.map Hop.index) := by
  rw [pushHops_eq]
  exact (List.perm_append_comm).trans ((List.reverse_perm _).append_left free)

/-- Allocated hops come off the free list (R62). -/
theorem popHops_perm {free : List (Fin 256)} {hops : List (Half × HopCondition)} (h : hops.length ≤ free.length) :
    (free.drop hops.length ++ (popHops free hops).map Hop.index).Perm free := by
  rw [popHops_index free hops h]
  exact List.perm_append_comm.trans (by rw [List.take_append_drop])

theorem answerSetSlotRoles_trailStep (s : State) (p : List Byte) : TrailStep s (answerSetSlotRoles s p).state := by
  unfold answerSetSlotRoles
  split
  · exact .refl s
  · next i _ =>
    split
    · exact .refl s
    · next hw =>
      split
      · next rx tx _ _ =>
        split
        · exact .refl s
        · next hd =>
          refine .inr ⟨i, _, window_of_not_barred hw, rfl, .refl _, id, fun _ hm => ?_⟩
          by_contra htx
          exact hd ⟨htx, hm⟩
      · exact .refl s

theorem answerLoadMapEntry_trailStep (s : State) (p : List Byte) : TrailStep s (answerLoadMapEntry s p).state := by
  unfold answerLoadMapEntry
  split
  · exact .refl s
  · next i _ =>
    split
    · exact .refl s
    · next hw =>
      split
      · split
        · exact .refl s
        · next hd =>
          refine .inr ⟨i, _, window_of_not_barred hw, rfl, .refl _, id, fun _ hm => ?_⟩
          by_contra htx
          exact hd ⟨bne_iff_ne.mp hm, htx⟩
      · exact .refl s

theorem answerClearMapEntry_trailStep (s : State) (p : List Byte) : TrailStep s (answerClearMapEntry s p).state := by
  unfold answerClearMapEntry
  split
  · exact .refl s
  · next i _ =>
    split
    · exact .refl s
    · next hw =>
      refine .inr ⟨i, clearEntry s.slots[i].map, window_of_not_barred hw, rfl, ?_, fun _ => Nat.zero_le _,
        fun _ hm => by cases hm⟩
      exact (List.append_nil _).symm ▸ pushHops_perm ..

theorem answerLinkRoute_trailStep (s : State) (p : List Byte) : TrailStep s (answerLinkRoute s p).state := by
  unfold answerLinkRoute
  dsimp only
  split
  · exact .refl s
  · next i _ =>
    split
    · exact .refl s
    · next hw =>
      split
      · exact .refl s
      · next hn =>
        split
        · exact .refl s
        · next hops hh =>
          have hlen := hopsOf_length p _ hops hh
          split
          · exact .refl s
          · next hfree =>
            rw [← hlen] at hfree hn
            have hfits : hops.length ≤ (pushHops s.freeHops s.slots[i].map.route).length := Nat.not_lt.mp hfree
            refine .inr ⟨i, { s.slots[i].map with route := popHops (pushHops s.freeHops s.slots[i].map.route) hops },
              window_of_not_barred hw, rfl, ?_, fun _ => ?_, id⟩
            · rw [← hlen]
              exact (popHops_perm hfits).trans (pushHops_perm ..)
            · exact (popHops_length _ hops hfits).le.trans (Nat.not_lt.mp hn)

/-! ## Steps -/

/-- A step of the part does to the trail map what its effect does. -/
theorem trailStep_of_act {s t : State} {f : State → State} (h : act s f = .next t) (hf : TrailStep s (f s)) :
    TrailStep s t := by
  rcases act_cases h with ⟨_, rfl⟩ | ⟨_, rfl⟩
  · exact .refl t
  · exact hf

theorem trailStep_of_kept {s t : State} {f : State → State} (h : act s f = .next t) (hf : TrailKept s (f s)) :
    TrailStep s t := trailStep_of_act h (.inl hf)

/-- A reset puts the trail map at its reset value (R57, R71). -/
theorem exec_reset_trailKept {c : Instr} {s t : State} (hc : c = .powerOn ∨ c = .resetnAsserted)
    (h : exec c s = .next t) : TrailKept State.reset t := by
  rcases hc with rfl | rfl
  · cases h
    have emptied : TrailKept State.reset { State.reset with pending := s.pending } :=
      (TrailKept.refl State.reset).congr (by dsimp only) (by dsimp only)
    exact emptied.trans (startOutputs_trailKept _)
  · cases h
    exact (TrailKept.refl State.reset).congr (by dsimp only) (by dsimp only)

/-- Every command other than a reset keeps the trail map or edits one slot in WINDOW. -/
theorem exec_trailStep {c : Instr} {s t : State} (hp : c ≠ .powerOn) (hr : c ≠ .resetnAsserted)
    (h : exec c s = .next t) : TrailStep s t := by
  cases c
  all_goals dsimp only [exec] at h
  case powerOn => exact absurd rfl hp
  case resetnAsserted => exact absurd rfl hr
  case setSlotRoles side => exact trailStep_of_act h (serve_trailStep answerSetSlotRoles_trailStep ..)
  case loadMapEntry side => exact trailStep_of_act h (serve_trailStep answerLoadMapEntry_trailStep ..)
  case clearMapEntry side => exact trailStep_of_act h (serve_trailStep answerClearMapEntry_trailStep ..)
  case linkRoute side => exact trailStep_of_act h (serve_trailStep answerLinkRoute_trailStep ..)
  case localPeriodBoundary target => exact trailStep_of_kept h (boundaryAt_trailKept ..)
  case settleLimitReached i => exact trailStep_of_kept h (.when (contextBoundary_trailKept ..))
  case soakEnd i => exact trailStep_of_kept h (.when (contextBoundary_trailKept ..))
  case defectHoldReached i => exact trailStep_of_kept h (.when (contextBoundary_trailKept ..))
  case intervalCountExpiry => exact trailStep_of_kept h (.when (engineBoundary_trailKept ..))
  case probeTimeout index => exact trailStep_of_kept h (.when (engineBoundary_trailKept ..))
  case huntCandidate side input =>
    refine trailStep_of_kept h ?_
    split <;> exact .refl s
  case confirmFrame side word phase =>
    refine trailStep_of_kept h ?_
    split <;> exact .refl s
  case lockedFrameJudged side arrival =>
    refine trailStep_of_kept h ?_
    split
    · exact lockedFrame_trailKept ..
    · exact .refl s
  case cycleReport i =>
    refine trailStep_of_kept h ?_
    split
    · exact .refl s
    · exact .of_set rfl rfl (.of_taken (takeReport_kept ..))
  case streamLoss i =>
    exact trailStep_of_kept h (.unless (.of_set rfl rfl
      (.of_taken (takeStreamLoss_kept ..))))
  case transmitCycleStart => exact trailStep_of_kept h (startCycle_trailKept s)
  case transmitCycleComplete => exact trailStep_of_kept h (.of_tx rfl rfl)
  case localFrameStart output => exact trailStep_of_kept h (.when (startLocalFrame_trailKept ..))
  case echoReceipt i =>
    refine trailStep_of_kept h ?_
    split
    · exact .refl s
    · refine TrailKept.trans ?_ (takeHandoff_trailKept ..)
      exact .of_set rfl rfl (.of_eq rfl rfl)
  case acceptedSample i =>
    exact trailStep_of_kept h (.unless (.of_set rfl rfl
      (.of_taken (takeSample_kept ..))))
  case withdrawRequest i =>
    refine trailStep_of_kept h (.unless (TrailKept.trans ?_ (withdrawSlot_trailKept ..)))
    exact .of_set rfl rfl (.of_eq rfl rfl)
  case filterResetRequest i =>
    refine trailStep_of_kept h ?_
    split
    · exact .refl s
    · exact .of_set rfl rfl (.of_eq rfl rfl)
  case baselineWrite i =>
    refine trailStep_of_kept h ?_
    split
    · exact .refl s
    · exact .of_set rfl rfl (.of_state (writeBaseline_sameExpectations ..) rfl)
  case finding i =>
    refine trailStep_of_kept h ?_
    split
    · exact .refl s
    · refine TrailKept.trans ?_ (takeFinding_trailKept ..)
      exact .of_set rfl rfl (.of_eq rfl rfl)
  case noticeStart skip => exact trailStep_of_kept h (startNotice_trailKept ..)
  case arbiterFrameStart output skip => exact trailStep_of_kept h (.when (startBuffered_trailKept ..))
  case arbiterFrameEnd output => exact trailStep_of_kept h (endSending_trailKept ..)
  case managementFrame side =>
    refine trailStep_of_kept h ?_
    split <;> exact .refl s
  case setNodeIdentity side => exact trailStep_of_kept h (serve_trailKept answerSetNodeIdentity_trailKept ..)
  case readStatus side block => exact trailStep_of_kept h (serveStatus_trailKept ..)
  case openWindow side => exact trailStep_of_kept h (serve_trailKept answerOpenWindow_trailKept ..)
  case closeWindow side => exact trailStep_of_kept h (serve_trailKept answerCloseWindow_trailKept ..)
  case setProfile side => exact trailStep_of_kept h (serve_trailKept answerSetProfile_trailKept ..)
  case setProbing side => exact trailStep_of_kept h (serve_trailKept (fun _ _ => .refl _) ..)
  case setReporting side => exact trailStep_of_kept h (serve_trailKept answerSetReporting_trailKept ..)
  case reverify side => exact trailStep_of_kept h (serve_trailKept answerReverify_trailKept ..)
  case queryTrail side => exact trailStep_of_kept h (serve_trailKept answerQueryTrail_trailKept ..)
  case queryTag side => exact trailStep_of_kept h (serve_trailKept answerQueryTag_trailKept ..)
  case queryRoute side => exact trailStep_of_kept h (serve_trailKept answerQueryRoute_trailKept ..)
  case clearDetected side block => exact trailStep_of_kept h (serveClear_trailKept ..)
  case restart side => exact trailStep_of_kept h (serve_trailKept (fun _ _ => .refl _) ..)
  case restartTakesEffect moment => exact trailStep_of_kept h (takeEffect_trailKept ..)
  case contextRestart i =>
    exact trailStep_of_kept h (.unless (.of_set rfl rfl
      (.of_taken (restartSlot_kept ..))))
  case refclkTick => exact trailStep_of_kept h (.refl s)
  case tagReceiverRestart => exact trailStep_of_kept h (.unless (.of_vectorOf rfl rfl fun _ => .of_eq rfl rfl))
  case lineTransmitterRestart => exact trailStep_of_kept h (.unless (.of_tx rfl rfl))
  case probeEngineRestart => exact trailStep_of_kept h (.unless (.of_vectorOf rfl rfl fun _ => .of_eq rfl rfl))
  case reportUnitRestart =>
    exact trailStep_of_kept h (.unless (.of_vectorOf rfl rfl fun _ => .of_state (.refl _) rfl))

/-! ## The edit gate and the invariant -/

/-- The slots after an edit of one of them. -/
theorem SlotEdited.slot {s t : State} {i : Slot} {m : SlotMap} (h : SlotEdited s t i m) (j : Slot) :
    t.slots[j] = if j = i then { s.slots[j] with map := m } else s.slots[j] := by
  rw [h.slots]
  rcases eq_or_ne j i with rfl | hj
  · exact State.modSlot_slot s j j fun _ => { s.slots[j] with map := m }
  · rw [if_neg hj]
    exact State.modSlot_other s hj fun _ => { s.slots[i] with map := m }

/-- Settles O55: a command keeps a slot's expectations, or it edits them and the slot is in WINDOW. -/
theorem expectationsChangeOnlyInWindow : Obligations.ExpectationsChangeOnlyInWindow := by
  intro c s t j hp hr h hw
  rcases exec_trailStep hp hr h with hk | ⟨i, m, he⟩
  · exact (hk.slot j).expectations
  · have hj : j ≠ i := fun hj => hw (hj ▸ he.window)
    rw [he.slot j, if_neg hj]

/-- Where every route list is the same, so are the allocated hops. -/
theorem allocatedHops_congr {s t : State} (h : ∀ i : Slot, t.slots[i].map.route = s.slots[i].map.route) :
    allocatedHops t = allocatedHops s := by
  unfold allocatedHops
  congr 1
  refine List.ext_getElem (by simp) fun k hk _ => ?_
  have hlt : k < 128 := by simpa using hk
  have hroute : t.slots[k].map.route = s.slots[k].map.route := h ⟨k, hlt⟩
  simp [hroute]

/-- One place of a list of lists replaced: the two lists of all their members differ by that place's members alone. -/
theorem flatten_map_set_perm {α β : Type} (f : α → List β) (l : List α) {k : Nat} (hk : k < l.length) (x : α) :
    (((l.set k x).map f).flatten ++ f l[k]).Perm ((l.map f).flatten ++ f x) := by
  classical
  have parts (y : α) : l.set k y = l.take k ++ y :: l.drop (k + 1) :=
    List.set_eq_take_append_cons_drop.trans (if_pos hk)
  have whole : l = l.take k ++ l[k] :: l.drop (k + 1) := (List.set_getElem_self hk).symm.trans (parts l[k])
  rw [List.perm_iff_count]
  intro b
  rw [parts x]
  conv_rhs => rw [whole]
  simp only [List.map_append, List.map_cons, List.flatten_append, List.flatten_cons, List.count_append]
  omega

/-- The allocated hops after an edit of one slot differ by that slot's route list alone. -/
theorem SlotEdited.allocatedHops_perm {s t : State} {i : Slot} {m : SlotMap} (h : SlotEdited s t i m) :
    (allocatedHops t ++ s.slots[i].map.route.map Hop.index).Perm (allocatedHops s ++ m.route.map Hop.index) := by
  have hperm := flatten_map_set_perm (fun sl : SlotState => sl.map.route.map Hop.index) s.slots.toList (k := i.val)
    (by simp) { s.slots[i] with map := m }
  unfold allocatedHops
  rw [h.slots, Vector.toList_set]
  simpa using hperm

theorem TrailKept.hopsConserved {s t : State} (h : TrailKept s t) (hs : HopsConserved s) : HopsConserved t := by
  have hroute (i : Slot) : t.slots[i].map.route = s.slots[i].map.route := (h.slot i).expectations.route
  refine ⟨?_, fun i => ?_⟩
  · rw [h.freeHops, allocatedHops_congr hroute]
    exact hs.1
  · rw [hroute i]
    exact hs.2 i

theorem SlotEdited.hopsConserved {s t : State} {i : Slot} {m : SlotMap} (h : SlotEdited s t i m)
    (hs : HopsConserved s) : HopsConserved t := by
  refine ⟨List.Perm.trans (List.perm_iff_count.mpr fun b => ?_) hs.1, fun j => ?_⟩
  · have hfree := List.perm_iff_count.mp h.hops b
    have hall := List.perm_iff_count.mp h.allocatedHops_perm b
    simp only [List.count_append] at hfree hall ⊢
    omega
  · rw [h.slot j]
    split
    · next hj => exact h.short (hs.2 i)
    · exact hs.2 j

theorem checksStandOnEntries_iff (s : State) :
    ChecksStandOnEntries s ↔ ∀ i : Slot,
      (beingChecked s.slots[i].context.state = true → MayBeChecked s.slots[i].map) ∧ DelayStands s.slots[i].map :=
  Iff.rfl

theorem SameExpectations.delayStands {a b : SlotMap} (h : SameExpectations a b) (ha : DelayStands a) :
    DelayStands b := by
  unfold DelayStands measuresDelay at *
  rwa [h.entry, h.txRole]

theorem TrailKept.checksStandOnEntries {s t : State} (h : TrailKept s t) (hs : ChecksStandOnEntries s) :
    ChecksStandOnEntries t := by
  rw [checksStandOnEntries_iff] at *
  intro i
  obtain ⟨hchecked, hdelay⟩ := hs i
  obtain ⟨hmap, hstate⟩ := h.slot i
  exact ⟨fun hc => hmap.mayBeChecked_iff.mpr ((hstate hc).elim hchecked id), hmap.delayStands hdelay⟩

theorem SlotEdited.checksStandOnEntries {s t : State} {i : Slot} {m : SlotMap} (h : SlotEdited s t i m)
    (hs : ChecksStandOnEntries s) : ChecksStandOnEntries t := by
  rw [checksStandOnEntries_iff] at *
  intro j
  rw [h.slot j]
  split
  · next hj =>
    subst hj
    refine ⟨fun hc => ?_, h.delay (hs j).2⟩
    rw [show ({ s.slots[j] with map := m } : SlotState).context.state = .window from h.window] at hc
    cases hc
  · exact hs j

/-- Every command keeps the trail map and the route pool in order. -/
theorem exec_keeps_trailMap {c : Instr} {s t : State} (hh : HopsConserved s) (hc : ChecksStandOnEntries s)
    (h : exec c s = .next t) : HopsConserved t ∧ ChecksStandOnEntries t := by
  by_cases hreset : c = .powerOn ∨ c = .resetnAsserted
  · have hk := exec_reset_trailKept hreset h
    exact ⟨hk.hopsConserved reset_hopsConserved, hk.checksStandOnEntries reset_checksStandOnEntries⟩
  · obtain ⟨hp, hr⟩ := not_or.mp hreset
    rcases exec_trailStep hp hr h with hk | ⟨i, m, he⟩
    · exact ⟨hk.hopsConserved hh, hk.checksStandOnEntries hc⟩
    · exact ⟨he.hopsConserved hh, he.checksStandOnEntries hc⟩

/-- Settles O57: a step runs the command at the front of the queue, and every command keeps the trail map in order. -/
theorem everyStepKeepsTheTrailMapInOrder : Obligations.EveryStepKeepsTheTrailMapInOrder := by
  intro s t hh hc h
  unfold step at h
  split at h
  · cases h; exact ⟨hh, hc⟩
  · next c rest _ => exact exec_keeps_trailMap (s := { s with pending := rest }) hh hc h

end Sys2Proof.Machine
end

section
/-! PROOFS. The accepted sample (O31), the requests of the contexts (O32), and matching (O52). -/

namespace Sys2Proof.Machine

/-! ## The accepted sample -/

theorem execAcceptedSample_eq {s : State} {i : Slot} (hr : s.resetHeld = false)
    (hq : 0 < s.slots[i].inFlight.samples) :
    exec (.acceptedSample i) s = .next (s.modSlot i fun sl => takeSample (checkInputs s) i
      { sl with inFlight := { sl.inFlight with samples := sl.inFlight.samples - 1 } }) := by
  show execAcceptedSample i s = _
  rw [execAcceptedSample, act_running hr, if_neg (Nat.pos_iff_ne_zero.mp hq)]

/-- The profile of a slot with a LOADED entry is the one that the entry names (R56). -/
theorem slotProfile_of_entry {m : SlotMap} {e : MapEntry} (h : m.entry = some e) (inp : CheckInputs) :
    slotProfile inp m = inp.profiles[e.profile] := by simp only [slotProfile, h]

theorem sampleAverage_waiting {sl : SlotState} (h : .protectChanged ∈ sl.inFlight.filterResets) :
    sampleAverage sl = none := by simp [sampleAverage, h]

theorem sampleAverage_standing {sl : SlotState} (h : .protectChanged ∉ sl.inFlight.filterResets) :
    sampleAverage sl = sl.probe.average := by simp [sampleAverage, h]

theorem sampleAverage_none {sl : SlotState} (h : sl.probe.average = none) : sampleAverage sl = none := by
  simp [sampleAverage, h]

section
variable {m : SlotMap} {e : MapEntry} (side : Protect)

/-- The reference by the entry's delay mode (R133). -/
theorem referenceOf_none (he : m.entry = some e) (hd : e.delay = .none) : referenceOf m side = none := by
  simp only [referenceOf, he, hd]

theorem referenceOf_fixed {d : Nat} (he : m.entry = some e) (hd : e.delay = .fixed d) :
    referenceOf m side = some d := by simp only [referenceOf, he, hd]

theorem referenceOf_baseline (he : m.entry = some e) (hd : e.delay = .baseline) :
    referenceOf m side = baselineOf m side := by simp only [referenceOf, he, hd]

end

section
variable {inp : CheckInputs} {i : Slot} {sl : SlotState} {a : Nat}

theorem takeSample_unverified (h : sl.context.state ≠ .verified) : takeSample inp i sl = sl := by
  unfold takeSample
  split
  case h_1 hc => exact absurd hc h
  all_goals rfl

theorem takeSample_noAverage (h : sampleAverage sl = none) : takeSample inp i sl = sl := by
  unfold takeSample
  split
  case h_1 => rw [h]
  all_goals rfl

theorem takeSample_tested {ref : Nat} (hv : sl.context.state = .verified) (ha : sampleAverage sl = some a)
    (href : referenceOf sl.map sl.tag.heldProtect = some ref) :
    takeSample inp i sl = strikeTest inp i ((a : Int) - (ref : Int)) sl := by
  simp only [takeSample, hv, ha, href]

theorem takeSample_untested (hv : sl.context.state = .verified) (ha : sampleAverage sl = some a)
    (href : referenceOf sl.map sl.tag.heldProtect = none) : takeSample inp i sl = learnBaseline inp a sl := by
  simp only [takeSample, hv, ha, href]

theorem learnBaseline_learns (he : sl.map.entry.map MapEntry.delay = some .baseline)
    (hn : (slotProfile inp sl.map).minSamples ≤ sl.probe.sampleCount) :
    learnBaseline inp a sl = { sl with map := writeBaseline sl.map sl.tag.heldProtect a } := if_pos ⟨he, hn⟩

theorem learnBaseline_other (he : sl.map.entry.map MapEntry.delay ≠ some .baseline) :
    learnBaseline inp a sl = sl := if_neg fun h => he h.1

theorem learnBaseline_few (hn : sl.probe.sampleCount < (slotProfile inp sl.map).minSamples) :
    learnBaseline inp a sl = sl := if_neg fun h => Nat.not_lt.mpr h.2 hn

end

/-- The strikes after a shift has been tested against a tolerance (R92, R134). -/
def strikesAfter (tolerance strikes : Nat) (shift : Int) : Nat :=
  if shiftFails shift tolerance then strikes + 1 else 0

/-- The tolerance test fails above the tolerance alone (R134). -/
theorem strikesAfter_eq (tolerance strikes : Nat) (shift : Int) :
    strikesAfter tolerance strikes shift = if tolerance < shift.natAbs then strikes + 1 else 0 := by
  simp only [strikesAfter, shiftFails, decide_eq_true_eq, gt_iff_lt]

/-- A slot with a count of strikes. -/
def withStrikes (sl : SlotState) (strikes : Nat) : SlotState :=
  { sl with context := { sl.context with strikes := strikes } }

/-- A tested shift counts or clears the strikes, and fails the slot once they reach the persistence (R92). -/
theorem strikeTest_eq (inp : CheckInputs) (i : Slot) (shift : Int) (sl : SlotState) :
    let p := slotProfile inp sl.map
    let struck := withStrikes sl (strikesAfter p.tolerance sl.context.strikes shift)
    strikeTest inp i shift sl =
      if p.shiftPersistence ≤ strikesAfter p.tolerance sl.context.strikes shift then
        enterFailed inp i .delayShift struck
      else struck := rfl

/-- Settles O31, by the state, the average that the sample reads and the reference. -/
theorem acceptedSampleTestsTheShift : Obligations.AcceptedSampleTestsTheShift := by
  intro s i hr hq inp sl held
  have hone := slotBecomes_modSlot s i fun sl => takeSample (checkInputs s) i
    { sl with inFlight := { sl.inFlight with samples := sl.inFlight.samples - 1 } }
  refine ⟨_, execAcceptedSample_eq hr hq, hone.1, fun h => hone.2.trans ?_, fun a e hv ha hw he => ?_⟩
  · show takeSample inp i sl = sl
    rcases h with h | h | h
    · exact takeSample_unverified h
    · exact takeSample_noAverage (sampleAverage_none h)
    · exact takeSample_noAverage (sampleAverage_waiting h)
  · have havg : sampleAverage sl = some a := (sampleAverage_standing hw).trans ha
    have hprof : slotProfile inp sl.map = s.profiles[e.profile] := slotProfile_of_entry he inp
    have hmode : sl.map.entry.map MapEntry.delay = some e.delay := congrArg (Option.map MapEntry.delay) he
    refine ⟨fun hd => hone.2.trans ?_, fun ref href => ?_, fun hd hnone => ?_⟩
    · show takeSample inp i sl = sl
      rw [takeSample_untested hv havg (referenceOf_none held he hd)]
      exact learnBaseline_other (by rw [hmode, hd]; simp)
    · have hreference : referenceOf sl.map held = some ref := by
        rcases href with hd | ⟨hd, hb⟩
        · exact referenceOf_fixed held he hd
        · exact (referenceOf_baseline held he hd).trans hb
      have htest := (takeSample_tested (inp := inp) (i := i) hv havg hreference).trans (strikeTest_eq ..)
      simp only [hprof, strikesAfter_eq] at htest
      exact ⟨fun h => hone.2.trans (htest.trans (if_neg (Nat.not_le.mpr h))),
        fun h => hone.2.trans (htest.trans (if_pos h))⟩
    · have hlearn := takeSample_untested (inp := inp) (i := i) hv havg ((referenceOf_baseline held he hd).trans hnone)
      rw [hd] at hmode
      refine ⟨fun h => hone.2.trans (hlearn.trans (learnBaseline_learns hmode ?_)),
        fun h => hone.2.trans (hlearn.trans (learnBaseline_few ?_))⟩
      · rwa [hprof]
      · rwa [hprof]

/-! ## The requests of the contexts -/

theorem execWithdrawRequest_eq {s : State} {i : Slot} (hr : s.resetHeld = false)
    (hq : 0 < s.slots[i].inFlight.withdraws) :
    exec (.withdrawRequest i) s = .next (withdrawSlot (s.modSlot i fun sl =>
      { sl with inFlight := { sl.inFlight with withdraws := sl.inFlight.withdraws - 1 } }) i) := by
  show execWithdrawRequest i s = _
  rw [execWithdrawRequest, act_running hr, if_neg (Nat.pos_iff_ne_zero.mp hq)]

theorem execFilterResetRequest_eq {s : State} {i : Slot} {reason : FilterReset} {left : List FilterReset}
    (hr : s.resetHeld = false) (hq : s.slots[i].inFlight.filterResets = reason :: left) :
    exec (.filterResetRequest i) s = .next (s.modSlot i fun sl =>
      { sl with probe := resetFilter sl.probe, inFlight := { sl.inFlight with filterResets := left } }) := by
  show execFilterResetRequest i s = _
  rw [execFilterResetRequest, act_running hr, hq]

theorem execBaselineWrite_eq {s : State} {i : Slot} {side : Protect} {value : Nat} {rest : List (Protect × Nat)}
    (hr : s.resetHeld = false) (hq : s.slots[i].inFlight.baselines = (side, value) :: rest) :
    exec (.baselineWrite i) s = .next (s.modSlot i fun sl =>
      { sl with map := writeBaseline sl.map side value, inFlight := { sl.inFlight with baselines := rest } }) := by
  show execBaselineWrite i s = _
  rw [execBaselineWrite, act_running hr, hq]

/-- A withdraw frees the slot's entry (R113). -/
theorem freeEntry_get (t : Vector (Option ProbeEntry) 8) (i : Slot) (k : Fin 8) :
    (freeEntry t i)[k] = t[k].bind fun e => if e.slot = i then none else some e := mapTable_get ..

theorem withdrawSlot_slots (s : State) (i : Slot) :
    (withdrawSlot s i).slots = (s.modSlot i fun sl => { sl with probe := { sl.probe with field := none } }).slots := rfl

/-- Settles O32, one request at a time. -/
theorem requestsOfTheContextsAreTaken : Obligations.RequestsOfTheContextsAreTaken := by
  intro s i hr sl q
  refine ⟨fun hq => ?_, fun reason left hq => ?_, fun side value rest hq => ?_⟩
  · refine ⟨_, execWithdrawRequest_eq hr hq, fun k => freeEntry_get _ i k, rfl, fun j hj => ?_, ?_⟩
    · rw [withdrawSlot_slots, State.modSlot_other _ hj, State.modSlot_other s hj]
    · rw [withdrawSlot_slots, State.modSlot_same, State.modSlot_same]
  · exact ⟨_, execFilterResetRequest_eq hr hq, slotBecomes_modSlot s i _⟩
  · have hone := slotBecomes_modSlot s i fun sl =>
      { sl with map := writeBaseline sl.map side value, inFlight := { sl.inFlight with baselines := rest } }
    refine ⟨_, execBaselineWrite_eq hr hq, hone.1, hone.2.trans ?_⟩
    cases side <;> rfl

/-! ## Matching -/

/-- A field agrees under its mask when the bits that the mask names agree (R45). -/
theorem maskedEqual_iff {n : Nat} (received expected mask : BitVec n) :
    maskedEqual received expected mask = true ↔
      ∀ k < n, mask.getLsbD k = true → received.getLsbD k = expected.getLsbD k := by
  rw [maskedEqual, beq_iff_eq, BitVec.eq_of_getLsbD_eq_iff]
  refine forall₂_congr fun k _ => ?_
  rw [BitVec.getLsbD_and, BitVec.getLsbD_and]
  cases mask.getLsbD k <;> simp

theorem matchResult_masked {e : MapEntry} {x m : Identity} (h : e.mode = .masked x m) (held : Identity) :
    matchResult e held =
      if maskedEqual held.node x.node m.node = true ∧ maskedEqual held.port x.port m.port = true ∧
        maskedEqual held.trail x.trail m.trail = true then .matched else .noMatch := by
  simp only [matchResult, h, Bool.and_eq_true, and_assoc]

theorem matchResult_listed {e : MapEntry} {a : Identity} {b : Option Identity} (h : e.mode = .listed a b)
    (held : Identity) :
    matchResult e held = if held = a then .matchedA else if b = some held then .matchedB else .noMatch := by
  simp only [matchResult, h, eq_comm (a := a)]

/-- When a hop is kept (R68). -/
theorem hopFits_iff (c : HopCondition) (side : Protect) :
    hopFits c side = true ↔
      c = .always ∨ (c = .workingOnly ∧ side = .working) ∨ (c = .protectOnly ∧ side = .protect) := by
  cases c <;> simp [hopFits]

theorem expectedRoute_cons (hop : Hop) (route : List Hop) (side : Protect) :
    expectedRoute (hop :: route) side =
      if hopFits hop.condition side = true then hop.node :: expectedRoute route side else expectedRoute route side := by
  unfold expectedRoute
  rw [List.filter_cons]
  split <;> rfl

/-- Two lists are equal when they are as long as each other and hold the same at every position. -/
theorem eq_iff_length_getElem? {α : Type} (l l' : List α) :
    l = l' ↔ l.length = l'.length ∧ ∀ i < l.length, l[i]? = l'[i]? := by
  refine ⟨fun h => h ▸ ⟨rfl, fun _ _ => rfl⟩, fun ⟨hlen, h⟩ => List.ext_getElem? fun i => ?_⟩
  rcases Nat.lt_or_ge i l.length with hi | hi
  · exact h i hi
  · rw [List.getElem?_eq_none hi, List.getElem?_eq_none (hlen ▸ hi)]

theorem routeMatches_exact {e : MapEntry} (h : e.routeCheck = .exact) (route : List Hop) (held : HeldTag)
    (side : Protect) :
    routeMatches e route held side = true ↔ held.overflow = false ∧ held.route = expectedRoute route side := by
  simp only [routeMatches, h, Bool.and_eq_true, Bool.not_eq_true', beq_iff_eq]

/-- Settles O52, by the match mode and the route check. -/
theorem matchingComparesIdentitiesAndRoutes : Obligations.MatchingComparesIdentitiesAndRoutes := by
  intro e h route side
  refine ⟨fun x m hm => ?_, fun a b hm => ?_, rfl, fun hop => ?_, fun hc => ?_, fun hc => ?_⟩
  · simp only [matchResult_masked hm, maskedEqual_iff]
    exact ⟨fun hagree => if_pos hagree, fun hagree => if_neg hagree⟩
  · rw [matchResult_listed hm]
    exact ⟨fun ha => if_pos ha, fun ha hb => by rw [if_neg ha, if_pos hb], fun ha hb => by rw [if_neg ha, if_neg hb]⟩
  · simp only [expectedRoute_cons, hopFits_iff]
  · simp only [routeMatches, hc]
  · rw [routeMatches_exact hc, eq_iff_length_getElem?]

end Sys2Proof.Machine
end

section
/-! PROOFS. The requests that edit expectations and settings: roles and entries (O45), profiles, probing and reporting
(O47). First the codes of their parameters, then each owner's answer. -/

namespace Sys2Proof.Machine

/-! ## Codes and ranges -/

theorem toNat_lt_two_iff (b : Byte) : b.toNat < 2 ↔ b = 0 ∨ b = 1 := by bv_omega

theorem toNat_lt_three_iff (b : Byte) : b.toNat < 3 ↔ b = 0 ∨ b = 1 ∨ b = 2 := by bv_omega

theorem rxRoleOf_coded {b : Byte} (h : b.toNat < 2) : rxRoleOf b = some (if b = 0 then .monitor else .terminate) := by
  rcases (toNat_lt_two_iff b).mp h with rfl | rfl <;> rfl

theorem rxRoleOf_uncoded {b : Byte} (h : ¬ b.toNat < 2) : rxRoleOf b = none := by
  rw [toNat_lt_two_iff, not_or] at h
  rw [rxRoleOf, if_neg h.1, if_neg h.2]

theorem txRoleOf_coded {b : Byte} (h : b.toNat < 3) :
    txRoleOf b = some (if b = 0 then .carry else if b = 1 then .stamp else .originate) := by
  rcases (toNat_lt_three_iff b).mp h with rfl | rfl | rfl <;> rfl

theorem txRoleOf_uncoded {b : Byte} (h : ¬ b.toNat < 3) : txRoleOf b = none := by
  rw [toNat_lt_three_iff, not_or, not_or] at h
  rw [txRoleOf, if_neg h.1, if_neg h.2.1, if_neg h.2.2]

theorem routeCheckOf_coded {b : Byte} (h : b.toNat < 2) : routeCheckOf b = some (if b = 0 then .none else .exact) := by
  rcases (toNat_lt_two_iff b).mp h with rfl | rfl <;> rfl

theorem routeCheckOf_uncoded {b : Byte} (h : ¬ b.toNat < 2) : routeCheckOf b = none := by
  rw [toNat_lt_two_iff, not_or] at h
  rw [routeCheckOf, if_neg h.1, if_neg h.2]

/-- The match mode of a request whose mode code is 00h or 01h (R170). -/
theorem matchModeOf_coded {p : List Byte} (h : (byteAt p 2).toNat < 2) :
    matchModeOf p = some (if byteAt p 2 = 0 then .masked (identityAt p 8) (identityAt p 13)
      else .listed (identityAt p 8) (if byteAt p 7 = 0 then none else some (identityAt p 13))) := by
  have hb : (if yesNo (byteAt p 7) then some (identityAt p 13) else none) =
      if byteAt p 7 = 0 then none else some (identityAt p 13) := by
    by_cases hz : byteAt p 7 = 0 <;> simp [yesNo, hz]
  unfold matchModeOf
  rw [hb]
  rcases (toNat_lt_two_iff _).mp h with h0 | h1
  · rw [if_pos h0, if_pos h0]
  · have h0 : byteAt p 2 ≠ 0 := by rw [h1]; decide
    rw [if_neg h0, if_pos h1, if_neg h0]

theorem matchModeOf_uncoded {p : List Byte} (h : ¬ (byteAt p 2).toNat < 2) : matchModeOf p = none := by
  rw [toNat_lt_two_iff, not_or] at h
  rw [matchModeOf, if_neg h.1, if_neg h.2]

/-- The delay mode of a request whose mode code is 00h, 01h or 02h (R170). -/
theorem delayModeOf_coded {p : List Byte} (h : (byteAt p 4).toNat < 3) :
    delayModeOf p = some (if byteAt p 4 = 0 then .none else if byteAt p 4 = 1 then .baseline
      else .fixed (fixedDelayOf p)) := by
  unfold delayModeOf
  rcases (toNat_lt_three_iff _).mp h with hb | hb | hb <;> rw [hb] <;> rfl

theorem delayModeOf_uncoded {p : List Byte} (h : ¬ (byteAt p 4).toNat < 3) : delayModeOf p = none := by
  rw [toNat_lt_three_iff, not_or, not_or] at h
  rw [delayModeOf, if_neg h.1, if_neg h.2.1, if_neg h.2.2]

theorem profileIndexOf_eq_some {b : Byte} {k : Fin 8} (h : k.val = b.toNat) : profileIndexOf b = some k := by
  rw [profileIndexOf, dif_pos (h ▸ k.isLt)]
  exact congrArg some (Fin.ext h.symm)

theorem profileIndexOf_coded {b : Byte} (h : b.toNat < 8) : profileIndexOf b = some (Fin.ofNat 8 b.toNat) :=
  profileIndexOf_eq_some (Nat.mod_eq_of_lt h)

theorem profileIndexOf_uncoded {b : Byte} (h : ¬ b.toNat < 8) : profileIndexOf b = none := dif_neg h

theorem beBytes_one (n : Nat) : beBytes 1 n = [BitVec.ofNat 8 n] := by simp [beBytes]

theorem beBytes_two (n : Nat) : beBytes 2 n = [BitVec.ofNat 8 (n / 256), BitVec.ofNat 8 n] := by simp [beBytes]

theorem beBytes_three (n : Nat) :
    beBytes 3 n = [BitVec.ofNat 8 (n / 65536), BitVec.ofNat 8 (n / 256), BitVec.ofNat 8 n] := by simp [beBytes]

theorem measuresDelay_iff (m : SlotMap) : measuresDelay m = true ↔ ∃ e, m.entry = some e ∧ e.delay ≠ .none := by
  rw [measuresDelay]
  cases m.entry <;> simp

/-! ## Requests that are done -/

section
variable {s : State} {side : Side} {c : Command} {r : Request} {answer : State → List Byte → Answer}

/-- A request that is DONE, by an owner that leaves the management unit alone, takes its effect and its reply. -/
theorem serve_done {u : State} {data : List Byte} (hf : findRequest s side c = some r) (hc : (c == .restart) = false)
    (ha : answer s r.payload = doneWith u data) (hu : u.management = s.management) :
    Replied side c r .done data false s (serve s side c answer) ∧
    OnlyReplies s.management (serve s side c answer).management ∧
    serve s side c answer = { u with management := (serve s side c answer).management } := by
  have hstate : (answer s r.payload).state = u := by rw [ha]; rfl
  refine ⟨?_, ?_, ?_⟩
  · exact serve_replied hf (by rw [ha]; rfl) (by rw [ha]; rfl) hc (by rw [hstate, hu]) (by rw [hstate, hu])
  · have h := serve_management hf answer
    rwa [hstate, hu] at h
  · have h := serve_state hf answer
    rwa [hstate] at h

/-- A request that is DONE by replacing the map of one slot. -/
theorem serve_edits {i : Slot} {f : SlotMap → SlotMap} {data : List Byte} (hf : findRequest s side c = some r)
    (hc : (c == .restart) = false)
    (ha : answer s r.payload = doneWith (s.modSlot i fun sl => { sl with map := f sl.map }) data) :
    Replied side c r .done data false s (serve s side c answer) ∧
    OnlyReplies s.management (serve s side c answer).management ∧
    serve s side c answer = { s with
      slots := (serve s side c answer).slots, management := (serve s side c answer).management } ∧
    (∀ j : Slot, j ≠ i → (serve s side c answer).slots[j] = s.slots[j]) ∧
    (serve s side c answer).slots[i] = { s.slots[i] with map := f s.slots[i].map } := by
  obtain ⟨hreplied, honly, hstate⟩ := serve_done hf hc ha rfl
  have hslots : (serve s side c answer).slots = (s.modSlot i fun sl => { sl with map := f sl.map }).slots := by
    rw [hstate]
  refine ⟨hreplied, honly, ?_, fun j hj => ?_, ?_⟩
  · rw [hslots]
    exact hstate
  · rw [hslots]
    exact State.modSlot_other s hj _
  · rw [hslots]
    exact State.modSlot_same s i _

end

/-! ## SET SLOT ROLES -/

theorem editable_false {s : State} {i : Slot} (h : s.slots[i].context.state ≠ .window) : editable s i = false :=
  Bool.eq_false_iff.mpr fun he => h ((editable_iff s i).mp he)

section
variable {s : State} {p : List Byte} {i : Slot}

theorem execSetSlotRoles_eq (hr : s.resetHeld = false) (side : Side) :
    exec (.setSlotRoles side) s = .next (serve s side .setSlotRoles answerSetSlotRoles) := by
  show execSetSlotRoles side s = _
  rw [execSetSlotRoles, act_running hr]

theorem answerSetSlotRoles_noSlot (h : slotOf (byteAt p 1) = none) : answerSetSlotRoles s p = refuse s .value := by
  simp only [answerSetSlotRoles, h]

theorem answerSetSlotRoles_closed (h : slotOf (byteAt p 1) = some i) (hw : s.slots[i].context.state ≠ .window) :
    answerSetSlotRoles s p = refuse s .state := by
  simp only [answerSetSlotRoles, h, editable_false hw, Bool.not_false, if_true]

theorem answerSetSlotRoles_uncoded (h : slotOf (byteAt p 1) = some i) (hw : s.slots[i].context.state = .window)
    (hc : ¬ ((byteAt p 2).toNat < 2 ∧ (byteAt p 3).toNat < 3)) : answerSetSlotRoles s p = refuse s .value := by
  simp only [answerSetSlotRoles, h, (editable_iff s i).mpr hw, Bool.not_true, Bool.false_eq_true, if_false]
  rcases not_and_or.mp hc with hrx | htx
  · rw [rxRoleOf_uncoded hrx]
  · rw [txRoleOf_uncoded htx]
    split
    · next hnone => cases hnone
    · rfl

theorem answerSetSlotRoles_coded {rx : RxRole} {tx : TxRole} (h : slotOf (byteAt p 1) = some i)
    (hw : s.slots[i].context.state = .window) (hrx : rxRoleOf (byteAt p 2) = some rx)
    (htx : txRoleOf (byteAt p 3) = some tx) :
    answerSetSlotRoles s p =
      if tx ≠ .originate ∧ measuresDelay s.slots[i].map = true then refuse s .value
      else done (s.modSlot i fun sl => { sl with map := { sl.map with
        rxRole := rx, txRole := tx, originPort := byteAt p 4, originTrail := halfAt p 5 } }) := by
  simp only [answerSetSlotRoles, h, (editable_iff s i).mpr hw, Bool.not_true, Bool.false_eq_true, if_false, hrx, htx]

/-! ## LOAD MAP ENTRY -/

theorem execLoadMapEntry_eq (hr : s.resetHeld = false) (side : Side) :
    exec (.loadMapEntry side) s = .next (serve s side .loadMapEntry answerLoadMapEntry) := by
  show execLoadMapEntry side s = _
  rw [execLoadMapEntry, act_running hr]

theorem answerLoadMapEntry_noSlot (h : slotOf (byteAt p 1) = none) : answerLoadMapEntry s p = refuse s .value := by
  simp only [answerLoadMapEntry, h]

theorem answerLoadMapEntry_closed (h : slotOf (byteAt p 1) = some i) (hw : s.slots[i].context.state ≠ .window) :
    answerLoadMapEntry s p = refuse s .state := by
  simp only [answerLoadMapEntry, h, editable_false hw, Bool.not_false, if_true]

/-- What the parameters of a LOAD MAP ENTRY request give when each is within its codes; none otherwise (R52, R170). -/
def entryOfPayload (p : List Byte) : Option MapEntry :=
  match matchModeOf p, routeCheckOf (byteAt p 3), delayModeOf p, profileIndexOf (byteAt p 5) with
  | some mode, some check, some delay, some k =>
    some { mode := mode, routeCheck := check, delay := delay, profile := k }
  | _, _, _, _ => none

theorem answerLoadMapEntry_uncoded (h : slotOf (byteAt p 1) = some i) (hw : s.slots[i].context.state = .window)
    (he : entryOfPayload p = none) : answerLoadMapEntry s p = refuse s .value := by
  simp only [answerLoadMapEntry, h, (editable_iff s i).mpr hw, Bool.not_true, Bool.false_eq_true, if_false]
  split
  · next hm hr hd hk => simp only [entryOfPayload, hm, hr, hd, hk, reduceCtorEq] at he
  · rfl

theorem entryOfPayload_eq_some {e : MapEntry} (h : entryOfPayload p = some e) :
    matchModeOf p = some e.mode ∧ routeCheckOf (byteAt p 3) = some e.routeCheck ∧ delayModeOf p = some e.delay ∧
      profileIndexOf (byteAt p 5) = some e.profile := by
  unfold entryOfPayload at h
  split at h
  · next hm hr hd hk =>
    cases h
    exact ⟨hm, hr, hd, hk⟩
  · cases h

theorem answerLoadMapEntry_coded {e : MapEntry} (h : slotOf (byteAt p 1) = some i)
    (hw : s.slots[i].context.state = .window) (he : entryOfPayload p = some e) :
    answerLoadMapEntry s p =
      if e.delay ≠ .none ∧ s.slots[i].map.txRole ≠ .originate then refuse s .value
      else doneWith (s.modSlot i fun sl => { sl with map := loadEntry e (yesNo (byteAt p 6)) sl.map })
        (loadData e.delay) := by
  obtain ⟨hm, hr, hd, hk⟩ := entryOfPayload_eq_some he
  simp only [answerLoadMapEntry, h, (editable_iff s i).mpr hw, Bool.not_true, Bool.false_eq_true, if_false, hm, hr, hd,
    hk]

end

/-- The parameters of an entry within their codes (R170). -/
def EntryCoded (p : List Byte) : Prop :=
  (byteAt p 2).toNat < 2 ∧ (byteAt p 3).toNat < 2 ∧ (byteAt p 4).toNat < 3 ∧ (byteAt p 5).toNat < 8

/-- The entry that a request within its codes gives (R170). -/
def codedEntry (p : List Byte) : MapEntry :=
  { mode := if byteAt p 2 = 0 then .masked (identityAt p 8) (identityAt p 13)
      else .listed (identityAt p 8) (if byteAt p 7 = 0 then none else some (identityAt p 13))
    routeCheck := if byteAt p 3 = 0 then .none else .exact
    delay := if byteAt p 4 = 0 then .none else if byteAt p 4 = 1 then .baseline else .fixed (fixedDelayOf p)
    profile := Fin.ofNat 8 (byteAt p 5).toNat }

theorem entryOfPayload_coded {p : List Byte} (h : EntryCoded p) : entryOfPayload p = some (codedEntry p) := by
  obtain ⟨hm, hr, hd, hk⟩ := h
  simp only [entryOfPayload, matchModeOf_coded hm, routeCheckOf_coded hr, delayModeOf_coded hd, profileIndexOf_coded hk,
    codedEntry]

theorem entryOfPayload_uncoded {p : List Byte} (h : ¬ EntryCoded p) : entryOfPayload p = none := by
  unfold entryOfPayload
  split
  · next hm hr hd hk =>
    refine absurd ⟨?_, ?_, ?_, ?_⟩ h
    · by_contra hn; rw [matchModeOf_uncoded hn] at hm; cases hm
    · by_contra hn; rw [routeCheckOf_uncoded hn] at hr; cases hr
    · by_contra hn; rw [delayModeOf_uncoded hn] at hd; cases hd
    · by_contra hn; rw [profileIndexOf_uncoded hn] at hk; cases hk
  · rfl

theorem codedEntry_delay_ne_none {p : List Byte} : (codedEntry p).delay ≠ .none ↔ byteAt p 4 ≠ 0 := by
  unfold codedEntry
  dsimp only
  split
  · next h => exact iff_of_false (fun hn => hn rfl) fun hn => hn h
  · next h =>
    refine iff_of_true ?_ h
    split <;> simp

/-- The reply carries the fixed delay as stored, in FIXED mode alone (R170). -/
theorem loadData_codedEntry {p : List Byte} (h : (byteAt p 4).toNat < 3) :
    loadData (codedEntry p).delay = if byteAt p 4 = 2 then
      [BitVec.ofNat 8 (fixedDelayOf p / 65536), BitVec.ofNat 8 (fixedDelayOf p / 256), BitVec.ofNat 8 (fixedDelayOf p)]
    else [] := by
  unfold codedEntry
  dsimp only
  rcases (toNat_lt_three_iff _).mp h with hb | hb | hb <;> rw [hb]
  · rfl
  · rfl
  · exact beBytes_three _

theorem loadEntry_eq (e : MapEntry) (b : Byte) (m : SlotMap) :
    loadEntry e (yesNo b) m = { m with
      entry := some e
      workingBaseline := if b = 0 then none else m.workingBaseline
      protectBaseline := if b = 0 then none else m.protectBaseline } := by
  by_cases hb : b = 0 <;> simp [loadEntry, yesNo, hb]

/-- SET SLOT ROLES with role codes within their ranges is barred by an entry that measures delay unless the slot goes on
to originate (R42). -/
theorem rolesBarred_iff {b : Byte} (h : b.toNat < 3) (m : SlotMap) :
    ((if b = 0 then TxRole.carry else if b = 1 then .stamp else .originate) ≠ .originate ∧ measuresDelay m = true) ↔
      b ≠ 2 ∧ ∃ e, m.entry = some e ∧ e.delay ≠ .none := by
  rw [measuresDelay_iff]
  refine and_congr_left fun _ => ?_
  rcases (toNat_lt_three_iff b).mp h with rfl | rfl | rfl <;> decide

/-- Settles O45, by the rows of R42 and R52. -/
theorem rolesAndEntriesAreEdited : Obligations.RolesAndEntriesAreEdited := by
  intro s side r hr p number edited identity
  refine ⟨fun hf => ⟨_, execSetSlotRoles_eq hr side, fun hn => ?_, fun i hi => ?_⟩,
    fun hf => ⟨_, execLoadMapEntry_eq hr side, fun hn => ?_, fun i hi => ?_⟩⟩
  · exact serve_refused hf rfl (answerSetSlotRoles_noSlot (slotOf_eq_none hn))
  · have hslot : slotOf (byteAt p 1) = some i := slotOf_eq_some hi
    refine ⟨fun hw => serve_refused hf rfl (answerSetSlotRoles_closed hslot hw),
      fun hw hc => serve_refused hf rfl (answerSetSlotRoles_uncoded hslot hw hc), fun hw ⟨hrx, htx⟩ => ?_⟩
    have ha := answerSetSlotRoles_coded hslot hw (rxRoleOf_coded hrx) (txRoleOf_coded htx)
    have hbarred := rolesBarred_iff htx s.slots[i].map
    exact ⟨fun h => serve_refused hf rfl (ha.trans (if_pos (hbarred.mpr h))),
      fun h => serve_edits (f := fun m => { m with rxRole := _, txRole := _, originPort := _, originTrail := _ }) hf rfl
        (ha.trans (if_neg fun h' => h (hbarred.mp h')))⟩
  · exact serve_refused hf rfl (answerLoadMapEntry_noSlot (slotOf_eq_none hn))
  · have hslot : slotOf (byteAt p 1) = some i := slotOf_eq_some hi
    refine ⟨fun hw => serve_refused hf rfl (answerLoadMapEntry_closed hslot hw),
      fun hw hc => serve_refused hf rfl (answerLoadMapEntry_uncoded hslot hw (entryOfPayload_uncoded hc)),
      fun hw hc => ?_⟩
    have ha := answerLoadMapEntry_coded hslot hw (entryOfPayload_coded hc)
    refine ⟨fun hd htx => serve_refused hf rfl (ha.trans (if_pos ⟨codedEntry_delay_ne_none.mpr hd, htx⟩)), ?_⟩
    rintro delay hallowed rfl
    have hnot : ¬ ((codedEntry p).delay ≠ .none ∧ s.slots[i].map.txRole ≠ .originate) := fun ⟨hd, htx⟩ =>
      hallowed.elim (codedEntry_delay_ne_none.mp hd) htx
    have hdone := serve_edits (f := loadEntry (codedEntry p) (yesNo (byteAt p 6))) hf rfl (ha.trans (if_neg hnot))
    obtain ⟨_, _, hdelay, _⟩ := hc
    rw [loadData_codedEntry hdelay, loadEntry_eq] at hdone
    exact hdone

end Sys2Proof.Machine
end

section
/-! PROOFS. The settings (O47): check profiles, the probe settings and the report settings. -/

namespace Sys2Proof.Machine

/-! ## Check profiles -/

theorem clamp_zero (hi n : Nat) : clamp 0 hi n = min hi n := Nat.zero_max _

/-- A 16-bit value needs no upper bound of 65,535. -/
theorem clamp_half (lo : Nat) (h : Half) : clamp lo 65535 h.toNat = max lo h.toNat := by
  have := h.isLt
  rw [clamp, Nat.min_eq_right (by omega)]

/-- Each field of a profile with its stored range (R54, R55). -/
theorem profileOfPayload_eq (p : List Byte) :
    profileOfPayload p =
      { settleLimit := max 1 (halfAt p 2).toNat, soakLength := max 1 (halfAt p 4).toNat
        erroredAllowance := (byteAt p 6).toNat, minSamples := max 1 (min 15 (byteAt p 7).toNat)
        restartBudget := min 7 (byteAt p 8).toNat, filterWeight := min 7 (byteAt p 9).toNat
        tolerance := min 32767 (halfAt p 10).toNat, shiftPersistence := max 1 (min 15 (byteAt p 12).toNat)
        defectHold := max 1 (halfAt p 13).toNat } := by
  simp only [profileOfPayload, clamp_half, clamp_zero]
  simp only [clamp]

theorem profileBytes_eq (f : Profile) :
    profileBytes f =
      [BitVec.ofNat 8 (f.settleLimit / 256), BitVec.ofNat 8 f.settleLimit] ++
      [BitVec.ofNat 8 (f.soakLength / 256), BitVec.ofNat 8 f.soakLength] ++
      [BitVec.ofNat 8 f.erroredAllowance, BitVec.ofNat 8 f.minSamples, BitVec.ofNat 8 f.restartBudget,
        BitVec.ofNat 8 f.filterWeight] ++
      [BitVec.ofNat 8 (f.tolerance / 256), BitVec.ofNat 8 f.tolerance] ++ [BitVec.ofNat 8 f.shiftPersistence] ++
      [BitVec.ofNat 8 (f.defectHold / 256), BitVec.ofNat 8 f.defectHold] := by
  simp only [profileBytes, beBytes_two, beBytes_one, List.cons_append, List.nil_append]

theorem answerSetProfile_refused {s : State} {p : List Byte} (h : 8 ≤ (byteAt p 1).toNat) :
    answerSetProfile s p = refuse s .value := by
  rw [answerSetProfile, profileIndexOf_uncoded (Nat.not_lt.mpr h)]

theorem answerSetProfile_done {s : State} {p : List Byte} {k : Fin 8} (h : k.val = (byteAt p 1).toNat) :
    answerSetProfile s p =
      doneWith { s with profiles := s.profiles.set k (profileOfPayload p) } (profileBytes (profileOfPayload p)) := by
  rw [answerSetProfile, profileIndexOf_eq_some h]

/-! ## Report settings -/

/-- A class byte that SET REPORTING refuses (R149). -/
def SeverityWrong (b : Byte) : Prop := b = 0 ∨ 3 < b.toNat

/-- The severity that a class byte of 01h to 03h names (R175). -/
def codedSeverity (b : Byte) : Severity := if b = 1 then .minor else if b = 2 then .major else .critical

theorem severityOf_coded {b : Byte} (h : ¬ SeverityWrong b) : severityOf b = some (codedSeverity b) := by
  have hb : b = 1 ∨ b = 2 ∨ b = 3 := by
    rw [SeverityWrong, not_or] at h
    bv_omega
  rcases hb with rfl | rfl | rfl <;> rfl

theorem severityOf_wrong {b : Byte} (h : SeverityWrong b) : severityOf b = none := by
  have hb : b ≠ 1 ∧ b ≠ 2 ∧ b ≠ 3 := by
    rcases h with rfl | h
    · decide
    · refine ⟨?_, ?_, ?_⟩ <;> rintro rfl <;> exact absurd h (by decide)
  rw [severityOf, if_neg hb.1, if_neg hb.2.1, if_neg hb.2.2]

theorem severitiesOf_coded (bs : List Byte) (h : ∀ b ∈ bs, ¬ SeverityWrong b) :
    severitiesOf bs = some (bs.map codedSeverity) := by
  induction bs with
  | nil => rfl
  | cons b bs ih =>
    rw [List.forall_mem_cons] at h
    rw [severitiesOf, severityOf_coded h.1, ih h.2]
    rfl

theorem severitiesOf_wrong {bs : List Byte} {b : Byte} (hb : b ∈ bs) (h : SeverityWrong b) :
    severitiesOf bs = none := by
  induction bs with
  | nil => cases hb
  | cons a bs ih =>
    rw [severitiesOf]
    rcases List.mem_cons.mp hb with rfl | hb
    · rw [severityOf_wrong h]
    · rw [ih hb]
      cases severityOf a <;> rfl

/-- The severity table of a request whose class bytes are all within R149. -/
theorem severityTableOf_coded {p : List Byte} (h : ∀ c : Fin 13, ¬ SeverityWrong (byteAt p (6 + c.val))) :
    ∃ table, severityTableOf p = some table ∧ ∀ c : Fin 13, table[c] = codedSeverity (byteAt p (6 + c.val)) := by
  have hall : ∀ b ∈ (List.range 13).map fun i => byteAt p (6 + i), ¬ SeverityWrong b := by
    intro b hb
    obtain ⟨k, hk, rfl⟩ := List.mem_map.mp hb
    exact h ⟨k, List.mem_range.mp hk⟩
  unfold severityTableOf
  rw [severitiesOf_coded _ hall]
  dsimp only
  rw [dif_pos (by simp)]
  exact ⟨_, rfl, fun c => by simp⟩

theorem severityTableOf_wrong {p : List Byte} {c : Fin 13} (h : SeverityWrong (byteAt p (6 + c.val))) :
    severityTableOf p = none := by
  have hmem : byteAt p (6 + c.val) ∈ (List.range 13).map fun i => byteAt p (6 + i) :=
    List.mem_map.mpr ⟨c.val, List.mem_range.mpr c.isLt, rfl⟩
  rw [severityTableOf, severitiesOf_wrong hmem h]

theorem sideOf_coded {b : Byte} (h : ¬ 1 < b.toNat) : sideOf b = some (if b = 0 then .line else .drop) := by
  rcases (toNat_lt_two_iff b).mp (by omega) with rfl | rfl <;> rfl

theorem sideOf_wrong {b : Byte} (h : 1 < b.toNat) : sideOf b = none := by
  have hb := mt (toNat_lt_two_iff b).mpr (by omega)
  rw [not_or] at hb
  rw [sideOf, if_neg hb.1, if_neg hb.2]

theorem nodeNumber_iff (n : Half) : nodeNumber n = true ↔ n ≠ 0 ∧ n ≠ 65535 := by
  rw [nodeNumber, Bool.and_eq_true, bne_iff_ne, bne_iff_ne]

/-- What SET REPORTING refuses (R149, R175). -/
def ReportingWrong (p : List Byte) : Prop :=
  halfAt p 2 = 0 ∨ halfAt p 2 = 65535 ∨ 1 < (byteAt p 1).toNat ∨ ∃ c : Fin 13, SeverityWrong (byteAt p (6 + c.val))

theorem reportSettingsOf_wrong {p : List Byte} (h : ReportingWrong p) : reportSettingsOf p = none := by
  unfold reportSettingsOf
  split
  · next hside htable =>
    rcases h with h | h | h | ⟨c, h⟩
    · exact if_neg fun hn => ((nodeNumber_iff _).mp hn).1 h
    · exact if_neg fun hn => ((nodeNumber_iff _).mp hn).2 h
    · rw [sideOf_wrong h] at hside
      cases hside
    · rw [severityTableOf_wrong h] at htable
      cases htable
  · rfl

/-- The settings of a request that is not refused (R175). -/
def codedSettings (p : List Byte) (table : Vector Severity 13) : ReportSettings :=
  { side := if byteAt p 1 = 0 then .line else .drop, destination := some (halfAt p 2), reportInfo := (byteAt p 4)[0]
    report := enablesOf (byteAt p 4), alertEnable := enablesOf (byteAt p 5), severity := table }

theorem reportSettingsOf_coded {p : List Byte} (h : ¬ ReportingWrong p) :
    ∃ table, reportSettingsOf p = some (codedSettings p table) ∧
      ∀ c : Fin 13, table[c] = codedSeverity (byteAt p (6 + c.val)) := by
  simp only [ReportingWrong, not_or, not_exists] at h
  obtain ⟨hzero, hmax, hside, hclass⟩ := h
  obtain ⟨table, htable, hentries⟩ := severityTableOf_coded hclass
  refine ⟨table, ?_, hentries⟩
  rw [reportSettingsOf, sideOf_coded hside, htable]
  exact if_pos ((nodeNumber_iff _).mpr ⟨hzero, hmax⟩)

theorem answerSetReporting_refused {s : State} {p : List Byte} (h : reportSettingsOf p = none) :
    answerSetReporting s p = refuse s .value := by rw [answerSetReporting, h]

theorem answerSetReporting_done {s : State} {p : List Byte} {settings : ReportSettings}
    (h : reportSettingsOf p = some settings) :
    answerSetReporting s p = done { s with report := refreshAlert { s.report with settings := settings } } := by
  rw [answerSetReporting, h]

/-! ## The three commands -/

section
variable {s : State} (hr : s.resetHeld = false) (side : Side)
include hr

theorem execSetProfile_eq : exec (.setProfile side) s = .next (serve s side .setProfile answerSetProfile) := by
  show execSetProfile side s = _
  rw [execSetProfile, act_running hr]

theorem execSetProbing_eq : exec (.setProbing side) s = .next (serve s side .setProbing answerSetProbing) := by
  show execSetProbing side s = _
  rw [execSetProbing, act_running hr]

theorem execSetReporting_eq :
    exec (.setReporting side) s = .next (serve s side .setReporting answerSetReporting) := by
  show execSetReporting side s = _
  rw [execSetReporting, act_running hr]

end

/-- Settles O47, one command at a time. -/
theorem settingsAreStoredWithinTheirRanges : Obligations.SettingsAreStoredWithinTheirRanges := by
  intro s side r hr p bytes2
  refine ⟨fun hf => ⟨_, execSetProfile_eq hr side, fun hn => ?_, fun k hk => ?_⟩,
    fun hf => ⟨_, execSetProbing_eq hr side, ?_⟩, fun hf => ⟨_, execSetReporting_eq hr side, fun hwrong => ?_, ?_⟩⟩
  · exact serve_refused hf rfl (answerSetProfile_refused hn)
  · have hdone := serve_done hf rfl (answerSetProfile_done (s := s) hk) rfl
    rw [profileBytes_eq] at hdone
    exact ⟨profileOfPayload p, profileOfPayload_eq p, hdone⟩
  · obtain ⟨hreplied, honly, hstate⟩ := serve_done (answer := answerSetProbing) hf rfl rfl rfl
    have hprobe := congrArg State.probe hstate
    rw [beBytes_one, beBytes_one] at hreplied
    refine ⟨congrArg ProbeEngine.interval hprobe, congrArg ProbeEngine.timeout hprobe, ?_, honly, ?_⟩
    · rw [hprobe]
      exact hreplied
    · rw [hprobe]
      exact hstate
  · exact serve_refused hf rfl (answerSetReporting_refused (reportSettingsOf_wrong hwrong))
  · intro hright
    obtain ⟨table, hsettings, hentries⟩ := reportSettingsOf_coded hright
    obtain ⟨hreplied, honly, hstate⟩ := serve_done hf rfl (answerSetReporting_done (s := s) hsettings) rfl
    have hreport := congrArg State.report hstate
    refine ⟨hreplied, honly, ?_, ?_, ?_, ?_, ?_⟩
    · rw [hreport]
      exact hstate
    · rw [hreport]
      rfl
    · rw [hreport]
      rfl
    · intro c
      rw [hreport]
      exact hentries c
    · rw [hreport]
      rfl

end Sys2Proof.Machine
end

section
/-! PROOFS. The expected routes (O46): the hops of a request, then the owner's answers to CLEAR MAP ENTRY and LINK ROUTE
row by row, and what a DONE answer leaves. -/

namespace Sys2Proof.Machine

/-! ## The hops of a request -/

/-- The condition that a byte of 00h, 01h or 02h names (R172). -/
def codedCondition (b : Byte) : HopCondition :=
  if b = 0 then .always else if b = 1 then .workingOnly else .protectOnly

theorem hopConditionOf_coded {b : Byte} (h : b.toNat < 3) : hopConditionOf b = some (codedCondition b) := by
  rcases (toNat_lt_three_iff b).mp h with rfl | rfl | rfl <;> rfl

theorem hopConditionOf_uncoded {b : Byte} (h : ¬ b.toNat < 3) : hopConditionOf b = none := by
  rw [toNat_lt_three_iff, not_or, not_or] at h
  obtain ⟨h0, h1, h2⟩ := h
  rw [hopConditionOf, if_neg h0, if_neg h1, if_neg h2]

/-- Hop `k` of a LINK ROUTE request lies within R58: a node number and a condition code. -/
def HopRight (p : List Byte) (k : Nat) : Prop :=
  halfAt p (3 + 3 * k) ≠ 0 ∧ halfAt p (3 + 3 * k) ≠ 65535 ∧ (byteAt p (5 + 3 * k)).toNat < 3

/-- What hop `k` of a LINK ROUTE request names (R172). -/
def codedHop (p : List Byte) (k : Nat) : Half × HopCondition :=
  (halfAt p (3 + 3 * k), codedCondition (byteAt p (5 + 3 * k)))

theorem hopsOf_right {p : List Byte} : ∀ {n : Nat}, (∀ k < n, HopRight p k) →
    hopsOf p n = some ((List.range n).map (codedHop p))
  | 0, _ => rfl
  | n + 1, h => by
    obtain ⟨hzero, hmax, hcondition⟩ := h n n.lt_succ_self
    rw [hopsOf, hopsOf_right fun k hk => h k (Nat.lt_succ_of_lt hk), hopConditionOf_coded hcondition, List.range_succ,
      List.map_append]
    exact if_pos ((nodeNumber_iff _).mpr ⟨hzero, hmax⟩)

/-- A hop outside its set leaves no hops at all (R63). -/
theorem hopsOf_wrong {p : List Byte} {k : Nat} (hwrong : ¬ HopRight p k) : ∀ {n : Nat}, k < n → hopsOf p n = none
  | n + 1, hk => by
    unfold hopsOf
    split
    · next hs _ hbefore hcondition =>
      rcases Nat.lt_succ_iff_lt_or_eq.mp hk with hlt | rfl
      · rw [hopsOf_wrong hwrong hlt] at hbefore
        cases hbefore
      · refine if_neg fun hnode => hwrong ?_
        obtain ⟨hzero, hmax⟩ := (nodeNumber_iff _).mp hnode
        refine ⟨hzero, hmax, ?_⟩
        by_contra hcode
        rw [hopConditionOf_uncoded hcode] at hcondition
        cases hcondition
    · rfl

/-- The route that a request allocates from a free list (R62). -/
def linkedRoute (free : List (Fin 256)) (p : List Byte) (n : Nat) : List Hop :=
  popHops free ((List.range n).map (codedHop p))

section
variable {free : List (Fin 256)} {n : Nat} (hfits : n ≤ free.length) (p : List Byte)
include hfits

theorem linkedRoute_index : (linkedRoute free p n).map Hop.index = free.take n := by
  simpa [linkedRoute] using popHops_index free ((List.range n).map (codedHop p)) (by simpa using hfits)

theorem linkedRoute_get {k : Nat} (hk : k < n) : ∃ h, (linkedRoute free p n)[k]? = some h ∧
    h.node = halfAt p (3 + 3 * k) ∧ h.condition = codedCondition (byteAt p (5 + 3 * k)) := by
  obtain ⟨h, hget, hnamed⟩ :=
    popHops_get free ((List.range n).map (codedHop p)) (by simpa using hfits) k (by simpa using hk)
  have hhop : codedHop p k = (h.node, h.condition) := by simpa [hk] using hnamed
  obtain ⟨hnode, hcondition⟩ := Prod.mk.inj hhop
  exact ⟨h, hget, hnode.symm, hcondition.symm⟩

end

/-! ## Requests that edit a slot and the free list -/

/-- A request that is DONE by replacing the map of one slot and the free list. -/
theorem serve_reroutes {s : State} {side : Side} {c : Command} {r : Request} {answer : State → List Byte → Answer}
    {i : Slot} {f : SlotMap → SlotMap} {free : List (Fin 256)} {data : List Byte}
    (hf : findRequest s side c = some r) (hc : (c == .restart) = false)
    (ha : answer s r.payload =
      doneWith { s.modSlot i (fun sl => { sl with map := f sl.map }) with freeHops := free } data) :
    (serve s side c answer).freeHops = free ∧
    Replied side c r .done data false s (serve s side c answer) ∧
    OnlyReplies s.management (serve s side c answer).management ∧
    serve s side c answer = { s with
      slots := (serve s side c answer).slots, freeHops := (serve s side c answer).freeHops
      management := (serve s side c answer).management } ∧
    (∀ j : Slot, j ≠ i → (serve s side c answer).slots[j] = s.slots[j]) ∧
    (serve s side c answer).slots[i] = { s.slots[i] with map := f s.slots[i].map } := by
  obtain ⟨hreplied, honly, hstate⟩ := serve_done hf hc ha rfl
  have hfree : (serve s side c answer).freeHops = free := by rw [hstate]
  have hslots : (serve s side c answer).slots = (s.modSlot i fun sl => { sl with map := f sl.map }).slots := by
    rw [hstate]
  refine ⟨hfree, hreplied, honly, ?_, fun j hj => ?_, ?_⟩
  · rw [hslots, hfree]
    exact hstate
  · rw [hslots]
    exact State.modSlot_other s hj _
  · rw [hslots]
    exact State.modSlot_same s i _

/-! ## CLEAR MAP ENTRY -/

section
variable {s : State} {p : List Byte} {i : Slot}

theorem execClearMapEntry_eq (hr : s.resetHeld = false) (side : Side) :
    exec (.clearMapEntry side) s = .next (serve s side .clearMapEntry answerClearMapEntry) := by
  show execClearMapEntry side s = _
  rw [execClearMapEntry, act_running hr]

theorem answerClearMapEntry_noSlot (h : slotOf (byteAt p 1) = none) : answerClearMapEntry s p = refuse s .value := by
  simp only [answerClearMapEntry, h]

theorem answerClearMapEntry_closed (h : slotOf (byteAt p 1) = some i) (hw : s.slots[i].context.state ≠ .window) :
    answerClearMapEntry s p = refuse s .state := by
  simp only [answerClearMapEntry, h, editable_false hw, Bool.not_false, if_true]

theorem answerClearMapEntry_done (h : slotOf (byteAt p 1) = some i) (hw : s.slots[i].context.state = .window) :
    answerClearMapEntry s p =
      doneWith { s.modSlot i (fun sl => { sl with map := clearEntry sl.map }) with
          freeHops := pushHops s.freeHops s.slots[i].map.route }
        (beBytes 2 (pushHops s.freeHops s.slots[i].map.route).length) := by
  simp only [answerClearMapEntry, h, (editable_iff s i).mpr hw, Bool.not_true, Bool.false_eq_true, if_false]

/-! ## LINK ROUTE -/

theorem execLinkRoute_eq (hr : s.resetHeld = false) (side : Side) :
    exec (.linkRoute side) s = .next (serve s side .linkRoute answerLinkRoute) := by
  show execLinkRoute side s = _
  rw [execLinkRoute, act_running hr]

theorem answerLinkRoute_noSlot (h : slotOf (byteAt p 1) = none) : answerLinkRoute s p = refuse s .value := by
  simp only [answerLinkRoute, h]

theorem answerLinkRoute_closed (h : slotOf (byteAt p 1) = some i) (hw : s.slots[i].context.state ≠ .window) :
    answerLinkRoute s p = refuse s .state := by
  simp only [answerLinkRoute, h, editable_false hw, Bool.not_false, if_true]

/-- More than six hops, or a hop outside its set, are refused (R63). -/
theorem answerLinkRoute_wrong (h : slotOf (byteAt p 1) = some i) (hw : s.slots[i].context.state = .window)
    (hwrong : ¬ ((byteAt p 2).toNat ≤ 6 ∧ ∀ k < (byteAt p 2).toNat, HopRight p k)) :
    answerLinkRoute s p = refuse s .value := by
  simp only [answerLinkRoute, h, (editable_iff s i).mpr hw, Bool.not_true, Bool.false_eq_true, if_false]
  split
  · rfl
  · next hn =>
    have hhop : ¬ ∀ k < (byteAt p 2).toNat, HopRight p k := fun hall => hwrong ⟨Nat.not_lt.mp hn, hall⟩
    push Not at hhop
    obtain ⟨k, hk, hbad⟩ := hhop
    rw [hopsOf_wrong hbad hk]

/-- Right hops are judged by what is free once the old list has been given back (R63). -/
theorem answerLinkRoute_right {free : List (Fin 256)} (h : slotOf (byteAt p 1) = some i)
    (hw : s.slots[i].context.state = .window) (hn : (byteAt p 2).toNat ≤ 6)
    (hright : ∀ k < (byteAt p 2).toNat, HopRight p k)
    (hfree : pushHops s.freeHops s.slots[i].map.route = free) :
    answerLinkRoute s p =
      if free.length < (byteAt p 2).toNat then
        { state := s, outcome := .pool, data := beBytes 2 s.freeHops.length }
      else
        doneWith
          { s.modSlot i (fun sl => { sl with map := { sl.map with
              route := linkedRoute free p (byteAt p 2).toNat } }) with
            freeHops := free.drop (byteAt p 2).toNat }
          (beBytes 2 (free.length - (byteAt p 2).toNat) ++
            (linkedRoute free p (byteAt p 2).toNat).map fun h => BitVec.ofNat 8 h.index.val) := by
  simp only [answerLinkRoute, h, (editable_iff s i).mpr hw, Bool.not_true, Bool.false_eq_true, if_false,
    if_neg (Nat.not_lt.mpr hn), hopsOf_right hright, hfree, freeCount, linkedRoute]

end

/-- The reply to a LINK ROUTE that is DONE: the free count and the new indexes (R172). -/
theorem linkData_eq {free : List (Fin 256)} {n : Nat} (hfits : n ≤ free.length) (p : List Byte) :
    (beBytes 2 (free.length - n) ++ (linkedRoute free p n).map fun h => BitVec.ofNat 8 h.index.val) =
      [BitVec.ofNat 8 ((free.length - n) / 256), BitVec.ofNat 8 (free.length - n)] ++
        (free.take n).map fun x => BitVec.ofNat 8 x.val := by
  rw [beBytes_two, ← linkedRoute_index hfits p, List.map_map]
  rfl

/-- Settles O46, by the rows of R53 and R63. -/
theorem routesAreFreedAndAllocated : Obligations.RoutesAreFreedAndAllocated := by
  intro s side r hr p number n count edited
  refine ⟨fun hf => ⟨_, execClearMapEntry_eq hr side, fun hn => ?_, fun i hi => ?_⟩,
    fun hf => ⟨_, execLinkRoute_eq hr side, fun hn => ?_, fun i hi => ?_⟩⟩
  · exact serve_refused hf rfl (answerClearMapEntry_noSlot (slotOf_eq_none hn))
  · have hslot : slotOf (byteAt p 1) = some i := slotOf_eq_some hi
    refine ⟨fun hw => serve_refused hf rfl (answerClearMapEntry_closed hslot hw), fun hw => ?_⟩
    obtain ⟨hfree, hedited⟩ := serve_reroutes (f := clearEntry) hf rfl (answerClearMapEntry_done hslot hw)
    rw [beBytes_two, ← hfree] at hedited
    exact ⟨hfree.trans (pushHops_eq ..), hedited⟩
  · exact serve_refused hf rfl (answerLinkRoute_noSlot (slotOf_eq_none hn))
  · have hslot : slotOf (byteAt p 1) = some i := slotOf_eq_some hi
    refine ⟨fun hw => serve_refused hf rfl (answerLinkRoute_closed hslot hw),
      fun hw hwrong => serve_refused hf rfl (answerLinkRoute_wrong hslot hw hwrong), fun hw ⟨hsix, hright⟩ => ?_⟩
    have ha := answerLinkRoute_right hslot hw hsix hright (pushHops_eq s.freeHops s.slots[i].map.route)
    refine ⟨fun hfew => ?_, fun hfits => ?_⟩
    · have hpool := serve_refused hf rfl (ha.trans (if_pos hfew))
      rwa [beBytes_two] at hpool
    · obtain ⟨hfree, hedited⟩ := serve_reroutes (f := fun m => { m with route := linkedRoute _ p n }) hf rfl
        (ha.trans (if_neg (Nat.not_lt.mpr hfits)))
      rw [linkData_eq hfits] at hedited
      exact ⟨_, linkedRoute_index hfits p, hfree, fun k hk => linkedRoute_get hfits p hk, hedited⟩

end Sys2Proof.Machine
end

section
/-! PROOFS. Entries to the states of a check (O8) and the finding that a transition makes (O9). -/

namespace Sys2Proof.Machine

/-! ## Entries -/

section
variable (inp : CheckInputs) (i : Slot) (cause : Cause) (sl : SlotState)

/-- Entry to FAILED makes the finding of the slot as it was, and withdraws the probe of one that was
probing (R94, R95). -/
theorem enterFailed_eq :
    enterFailed inp i cause sl = { sl with
      context := { sl.context with state := .failed, lastCause := some cause }
      inFlight := { sl.inFlight with
        findings := sl.inFlight.findings ++ [snapshot inp i sl .failed (some cause) false]
        withdraws :=
          sl.inFlight.withdraws + if sl.context.state = .soaking ∨ sl.context.state = .verified then 1 else 0 } } := by
  unfold enterFailed
  dsimp only
  by_cases h : sl.context.state = .soaking ∨ sl.context.state = .verified
  · rw [if_pos h, if_pos h]
    rfl
  · rw [if_neg h, if_neg h]
    rfl

/-- The slot with its check restart counted (R85). -/
def restartCounted : SlotState :=
  { sl with context := { sl.context with restartCount := sl.context.restartCount + 1 } }

/-- The slot that a check restart within the budget leaves to the entry to SETTLING: counted, with its cause and its
finding (R85). -/
def restartCaused : SlotState :=
  handFinding
    { restartCounted sl with context := { (restartCounted sl).context with lastCause := some cause } }
    (snapshot inp i (restartCounted sl) .restarted (some cause) false)

theorem checkRestart_eq :
    checkRestart inp i cause sl =
      if (slotProfile inp sl.map).restartBudget < sl.context.restartCount + 1 then
        enterFailed inp i .unstable (restartCounted sl)
      else enterSettling (restartCaused inp i cause sl) := rfl

end

/-- Settles O8, one entry after the other. -/
theorem entriesToTheStatesOfACheck : Obligations.EntriesToTheStatesOfACheck := by
  intro inp i sl c q
  refine ⟨fun cause => enterFailed_eq inp i cause sl, fun _ => rfl, rfl, ?_, fun cause =>
    ⟨fun h => ?_, fun h => ?_⟩⟩
  · rintro _ rfl
    exact ⟨rfl, rfl⟩
  · exact (checkRestart_eq inp i cause sl).trans (if_pos h)
  · exact (checkRestart_eq inp i cause sl).trans (if_neg (Nat.not_lt.mpr h))

/-! ## Findings -/

/-- The reference of a slot is the fixed delay of its entry or the baseline of the side (R133). -/
theorem referenceOf_eq_some_iff {m : SlotMap} {side : Protect} {r : Nat} :
    referenceOf m side = some r ↔ ∃ e, m.entry = some e ∧ (e.delay = .fixed r ∨ e.delay = .baseline ∧
      (side = .working ∧ m.workingBaseline = some r ∨ side = .protect ∧ m.protectBaseline = some r)) := by
  have hbase : baselineOf m side = some r ↔
      side = .working ∧ m.workingBaseline = some r ∨ side = .protect ∧ m.protectBaseline = some r := by
    cases side <;> simp [baselineOf]
  rw [← hbase]
  cases he : m.entry with
  | none => simp [referenceOf, he]
  | some e => cases hd : e.delay <;> simp [referenceOf, he, hd]

/-- The reported shift is the internal shift brought into 16 bits, with the flag of a shift that was not (R135). -/
theorem reportedShift_eq (d : Int) :
    reportedShift d = (max (-32768) (min 32767 d), decide (d < -32768 ∨ 32767 < d)) := by
  unfold reportedShift
  split
  · next h => exact Prod.ext (by dsimp only; omega) (by simp [h])
  · split
    · next h => exact Prod.ext (by dsimp only; omega) (by simp [h])
    · exact Prod.ext (by dsimp only; omega) (by simp; omega)

theorem slotShift_none {m : SlotMap} {p : SlotProbe} {side : Protect}
    (h : p.average = none ∨ referenceOf m side = none) : slotShift m p side = none := by
  rcases h with h | h
  · simp [slotShift, internalShift, h]
  · simp [slotShift, internalShift, h]

theorem slotShift_some {m : SlotMap} {p : SlotProbe} {side : Protect} {a r : Nat} (ha : p.average = some a)
    (hr : referenceOf m side = some r) : slotShift m p side = some (reportedShift ((a : Int) - (r : Int))) := by
  simp [slotShift, internalShift, ha, hr]

/-- Settles O9, by what the slot holds. -/
theorem findingsAreSnapshotsOfTheCheck : Obligations.FindingsAreSnapshotsOfTheCheck := by
  intro inp i sl kind cause baselineSet f reference
  refine ⟨rfl, fun hn => ⟨?_, ?_⟩, fun h hh => ⟨?_, fun hn => ?_, fun e he => ?_⟩, fun hn => ?_, fun a r ha hr => ?_⟩
  · simp [f, snapshot, hn]
  · simp [f, snapshot, hn]
  · simp [f, snapshot, hh]
  · simp [f, snapshot, hn]
  · simp [f, snapshot, he, hh]
  · refine slotShift_none (hn.imp_right fun hno => Option.eq_none_iff_forall_ne_some.mpr fun r hr => ?_)
    exact hno r (referenceOf_eq_some_iff.mp hr)
  · exact (slotShift_some ha (referenceOf_eq_some_iff.mpr hr)).trans (congrArg some (reportedShift_eq _))

end Sys2Proof.Machine
end

section
/-! PROOFS. Local period boundaries at a context: the counts below the limits (O5), the timers at their limits (O6) and
the decision at soak end (O7). -/

namespace Sys2Proof.Machine

/-! ## The boundary of a slot -/

section
variable {s : State} {i : Slot}

theorem contextBoundary_eq (hb : 0 < s.slots[i].inFlight.boundaries) :
    contextBoundary s i = s.modSlot i fun sl => takeBoundary (checkInputs s) i (boundaryTaken sl) :=
  if_pos (decide_eq_true hb)

theorem execLocalPeriodBoundary_context (hr : s.resetHeld = false) :
    exec (.localPeriodBoundary (.context i)) s = .next (contextBoundary s i) := act_running hr _

theorem execSettleLimitReached_eq (hr : s.resetHeld = false) (h : settleLimitAhead (checkInputs s) s.slots[i] = true) :
    exec (.settleLimitReached i) s = .next (contextBoundary s i) := by
  show execSettleLimitReached i s = _
  rw [execSettleLimitReached, act_running hr, if_pos h]

theorem execSoakEnd_eq (hr : s.resetHeld = false) (h : soakEndAhead (checkInputs s) s.slots[i] = true) :
    exec (.soakEnd i) s = .next (contextBoundary s i) := by
  show execSoakEnd i s = _
  rw [execSoakEnd, act_running hr, if_pos h]

theorem execDefectHoldReached_eq (hr : s.resetHeld = false) (h : defectHoldAhead (checkInputs s) s.slots[i] = true) :
    exec (.defectHoldReached i) s = .next (contextBoundary s i) := by
  show execDefectHoldReached i s = _
  rw [execDefectHoldReached, act_running hr, if_pos h]

/-- A boundary that waits at a context makes of the slot what its state makes of the boundary. -/
theorem contextBoundary_becomes {sl : SlotState} (hb : 0 < s.slots[i].inFlight.boundaries)
    (h : takeBoundary (checkInputs s) i (boundaryTaken s.slots[i]) = sl) :
    SlotBecomes i s (contextBoundary s i) sl := by
  rw [contextBoundary_eq hb, ← h]
  exact slotBecomes_modSlot s i fun sl => takeBoundary (checkInputs s) i (boundaryTaken sl)

end

/-! ## What a state makes of a boundary -/

section
variable {inp : CheckInputs} {i : Slot} {sl : SlotState}

theorem takeBoundary_settling (h : sl.context.state = .settling) :
    takeBoundary inp i sl =
      if (slotProfile inp sl.map).settleLimit ≤ sl.context.settleTimer + 1 then
        enterFailed inp i (waitCause sl.context.waitReason)
          { sl with context := { sl.context with settleTimer := sl.context.settleTimer + 1 } }
      else { sl with context := { sl.context with settleTimer := sl.context.settleTimer + 1 } } := by
  rw [takeBoundary, h]
  rfl

theorem takeBoundary_soaking (h : sl.context.state = .soaking) :
    takeBoundary inp i sl =
      if (slotProfile inp sl.map).soakLength ≤ sl.context.soakCount + 1 then
        decideSoakEnd inp i { sl with context := { sl.context with soakCount := sl.context.soakCount + 1 } }
      else { sl with context := { sl.context with soakCount := sl.context.soakCount + 1 } } := by
  rw [takeBoundary, h]
  rfl

theorem takeBoundary_verified (h : sl.context.state = .verified) (hd : sl.context.defectNow = true) :
    takeBoundary inp i sl =
      if (slotProfile inp sl.map).defectHold ≤ sl.context.defectTimer + 1 then
        enterFailed inp i .defect
          { sl with context := { sl.context with defectTimer := sl.context.defectTimer + 1 } }
      else { sl with context := { sl.context with defectTimer := sl.context.defectTimer + 1 } } := by
  rw [takeBoundary, h]
  exact if_pos hd

theorem takeBoundary_verified_clear (h : sl.context.state = .verified) (hd : sl.context.defectNow = false) :
    takeBoundary inp i sl = sl := by
  rw [takeBoundary, h]
  exact if_neg (Bool.eq_false_iff.mp hd)

theorem takeBoundary_idle (h : sl.context.state = .idle ∨ sl.context.state = .window ∨ sl.context.state = .failed) :
    takeBoundary inp i sl = sl := by
  rcases h with h | h | h <;> rw [takeBoundary, h]

end

/-- Settles O5, by the state. -/
theorem boundaryCountsBelowTheLimits : Obligations.BoundaryCountsBelowTheLimits := by
  intro s i hr hb c p answers
  have counts {c' : Context}
      (h : takeBoundary (checkInputs s) i (boundaryTaken s.slots[i]) = { boundaryTaken s.slots[i] with context := c' }) :
      answers c' := ⟨_, execLocalPeriodBoundary_context hr, contextBoundary_becomes hb h⟩
  refine ⟨fun h hlt => counts ?_, fun h hlt => counts ?_, fun h hd hlt => counts ?_, fun h hd => counts ?_,
    fun h => counts ?_⟩
  · exact (takeBoundary_settling (sl := boundaryTaken s.slots[i]) h).trans (if_neg (Nat.not_le.mpr hlt))
  · exact (takeBoundary_soaking (sl := boundaryTaken s.slots[i]) h).trans (if_neg (Nat.not_le.mpr hlt))
  · exact (takeBoundary_verified (sl := boundaryTaken s.slots[i]) h hd).trans (if_neg (Nat.not_le.mpr hlt))
  · exact takeBoundary_verified_clear h hd
  · exact takeBoundary_idle h

/-- Settles O6: both rows are the boundary at the context. -/
theorem timersAtTheirLimitsFailTheSlot : Obligations.TimersAtTheirLimitsFailTheSlot := by
  intro s i hr hb sl p
  refine ⟨fun h hle => ?_, fun h hd hle => ?_⟩
  · have ahead : settleLimitAhead (checkInputs s) s.slots[i] = true := by
      rw [settleLimitAhead, Bool.and_eq_true, beq_iff_eq, decide_eq_true_eq]
      exact ⟨h, hle⟩
    exact ⟨_, execSettleLimitReached_eq hr ahead, execLocalPeriodBoundary_context hr,
      contextBoundary_becomes hb ((takeBoundary_settling h).trans (if_pos hle))⟩
  · have ahead : defectHoldAhead (checkInputs s) s.slots[i] = true := by
      rw [defectHoldAhead, Bool.and_eq_true, Bool.and_eq_true, beq_iff_eq, decide_eq_true_eq]
      exact ⟨⟨h, hd⟩, hle⟩
    exact ⟨_, execDefectHoldReached_eq hr ahead, execLocalPeriodBoundary_context hr,
      contextBoundary_becomes hb ((takeBoundary_verified h hd).trans (if_pos hle))⟩

/-! ## Soak end -/

section
variable {inp : CheckInputs} {i : Slot} {sl : SlotState} {e : MapEntry} {a : Nat}

/-- The rows of R88 in their order. -/
theorem decideSoakEnd_unmeasured (he : sl.map.entry = some e) (hd : e.delay = .none) :
    decideSoakEnd inp i sl = enterVerified inp i false sl := by
  simp only [decideSoakEnd, he, hd, Option.map_some, Option.getD_some, if_true]

theorem decideSoakEnd_few (he : sl.map.entry = some e) (hd : e.delay ≠ .none)
    (hn : sl.probe.sampleCount < (slotProfile inp sl.map).minSamples) :
    decideSoakEnd inp i sl = enterFailed inp i .noDelay sl := by
  simp only [decideSoakEnd, he, Option.map_some, Option.getD_some, if_neg hd, if_pos hn]

theorem decideSoakEnd_learns (he : sl.map.entry = some e) (hd : e.delay ≠ .none)
    (hn : (slotProfile inp sl.map).minSamples ≤ sl.probe.sampleCount) (ha : sl.probe.average = some a)
    (href : referenceOf sl.map sl.tag.heldProtect = none) :
    decideSoakEnd inp i sl =
      enterVerified inp i true { sl with map := writeBaseline sl.map sl.tag.heldProtect a } := by
  simp only [decideSoakEnd, he, Option.map_some, Option.getD_some, if_neg hd, if_neg (Nat.not_lt.mpr hn), ha, href]

theorem decideSoakEnd_tested {r : Nat} (he : sl.map.entry = some e) (hd : e.delay ≠ .none)
    (hn : (slotProfile inp sl.map).minSamples ≤ sl.probe.sampleCount) (ha : sl.probe.average = some a)
    (href : referenceOf sl.map sl.tag.heldProtect = some r) :
    decideSoakEnd inp i sl =
      if (slotProfile inp sl.map).tolerance < ((a : Int) - (r : Int)).natAbs then enterFailed inp i .delayShift sl
      else enterVerified inp i false sl := by
  simp only [decideSoakEnd, he, Option.map_some, Option.getD_some, if_neg hd, if_neg (Nat.not_lt.mpr hn), ha, href,
    shiftFails, decide_eq_true_eq, gt_iff_lt]

end

/-- Settles O7: the boundary ends the soak, and the count included is decided by the rows of R88. -/
theorem soakEndDecidesTheSlot : Obligations.SoakEndDecidesTheSlot := by
  intro s i e hr hb hs he hlen inp p sl
  have hprof : slotProfile inp sl.map = p := slotProfile_of_entry he inp
  have hlimit : (slotProfile inp s.slots[i].map).soakLength ≤ s.slots[i].context.soakCount + 1 := by
    rw [slotProfile_of_entry he]
    exact hlen
  have ahead : soakEndAhead inp s.slots[i] = true := by
    rw [soakEndAhead, Bool.and_eq_true, beq_iff_eq, decide_eq_true_eq]
    exact ⟨hs, hlimit⟩
  have ended : takeBoundary inp i (boundaryTaken s.slots[i]) = decideSoakEnd inp i sl :=
    (takeBoundary_soaking (sl := boundaryTaken s.slots[i]) hs).trans (if_pos hlimit)
  obtain ⟨honly, hslot⟩ := contextBoundary_becomes hb ended
  refine ⟨_, execSoakEnd_eq hr ahead, execLocalPeriodBoundary_context hr, honly, fun hd => hslot.trans ?_,
    fun hd hn => hslot.trans ?_, fun hd hn a ha => ⟨fun hbase hnone => hslot.trans ?_, fun r hd' => ?_⟩⟩
  · exact decideSoakEnd_unmeasured he hd
  · exact decideSoakEnd_few he hd (by rwa [hprof])
  · exact decideSoakEnd_learns he hd (by rwa [hprof]) ha ((referenceOf_baseline _ he hbase).trans hnone)
  · have href : referenceOf sl.map sl.tag.heldProtect = some r := by
      rcases hd' with hfixed | ⟨hbase, hsome⟩
      · exact referenceOf_fixed _ he hfixed
      · exact (referenceOf_baseline _ he hbase).trans hsome
    have tested := decideSoakEnd_tested (inp := inp) (i := i) (sl := sl) he hd (by rwa [hprof]) ha href
    rw [hprof] at tested
    exact ⟨fun hgt => hslot.trans (tested.trans (if_pos hgt)),
      fun hle => hslot.trans (tested.trans (if_neg (Nat.not_lt.mpr hle)))⟩

end Sys2Proof.Machine
end

section
/-! PROOFS. Cycle reports at a context by its state (O26, O27, O28, O29), and stream loss (O30).
The theorems of O27, O28 and O29 end in `_holds`, because their plain names are functions of the model. -/

namespace Sys2Proof.Machine

/-! ## The judgement of a report -/

section
variable {s : State} {i : Slot} {r : CycleReport} {rest : List CycleReport} {defect : Bool}

/-- The judgement of a report is the one of R74. -/
theorem reportIsDefect_iff : reportIsDefect (checkInputs s) s.slots[i].context r = true ↔ countsAsDefect s i r := by
  simp [reportIsDefect, countsAsDefect, checkInputs, or_assoc, -Fin.getElem_fin]

theorem reportIsDefect_eq (hd : defect = true ↔ countsAsDefect s i r) :
    reportIsDefect (checkInputs s) s.slots[i].context r = defect :=
  Bool.eq_iff_iff.mpr (reportIsDefect_iff.trans hd.symm)

/-- The slot with its oldest report taken off the queue. -/
def reportTaken (sl : SlotState) (rest : List CycleReport) : SlotState :=
  { sl with inFlight := { sl.inFlight with reports := rest } }

theorem judgedSlot_eq (hd : defect = true ↔ countsAsDefect s i r) :
    { reportTaken s.slots[i] rest with
      context := afterDefectJudgement (checkInputs s) s.slots[i].context r } = judgedSlot s i rest defect := by
  rw [← reportIsDefect_eq hd]
  by_cases hl : s.receiver.line.align = .locked
  · simp only [judgedSlot, reportTaken, afterDefectJudgement, checkInputs, hl, beq_self_eq_true, if_true]
  · simp only [judgedSlot, reportTaken, afterDefectJudgement, checkInputs, hl, beq_eq_false_iff_ne.mpr hl,
      Bool.false_eq_true, if_false]

theorem execCycleReport_eq (hr : s.resetHeld = false) (hq : s.slots[i].inFlight.reports = r :: rest) :
    exec (.cycleReport i) s =
      .next (s.modSlot i fun sl => takeReport (checkInputs s) i r (reportTaken sl rest)) := by
  show execCycleReport i s = _
  rw [execCycleReport, act_running hr, hq]
  rfl

/-- The oldest report of a slot is taken, and makes of the slot what the slot's state makes of the report. -/
theorem cycleReport_becomes {sl : SlotState} (hr : s.resetHeld = false)
    (hq : s.slots[i].inFlight.reports = r :: rest)
    (h : takeReport (checkInputs s) i r (reportTaken s.slots[i] rest) = sl) :
    ∃ t, exec (.cycleReport i) s = .next t ∧ SlotBecomes i s t sl :=
  ⟨_, execCycleReport_eq hr hq,
    h ▸ slotBecomes_modSlot s i fun sl => takeReport (checkInputs s) i r (reportTaken sl rest)⟩

/-! ## What a state makes of a report -/

theorem takeReport_outside (hd : defect = true ↔ countsAsDefect s i r)
    (h : s.slots[i].context.state = .idle ∨ s.slots[i].context.state = .window ∨ s.slots[i].context.state = .failed) :
    takeReport (checkInputs s) i r (reportTaken s.slots[i] rest) = judgedSlot s i rest defect := by
  rw [← judgedSlot_eq hd]
  unfold takeReport
  rw [show (reportTaken s.slots[i] rest).context = s.slots[i].context from rfl]
  rcases h with h | h | h <;> rw [h]

theorem takeReport_settling (hd : defect = true ↔ countsAsDefect s i r) (h : s.slots[i].context.state = .settling) :
    takeReport (checkInputs s) i r (reportTaken s.slots[i] rest) =
      reportInSettling (checkInputs s) i defect r (judgedSlot s i rest defect) := by
  rw [← judgedSlot_eq hd, ← reportIsDefect_eq hd]
  unfold takeReport
  rw [show (reportTaken s.slots[i] rest).context = s.slots[i].context from rfl, h]

theorem takeReport_soaking (hd : defect = true ↔ countsAsDefect s i r) (h : s.slots[i].context.state = .soaking) :
    takeReport (checkInputs s) i r (reportTaken s.slots[i] rest) =
      reportInSoaking (checkInputs s) i defect r (judgedSlot s i rest defect) := by
  rw [← judgedSlot_eq hd, ← reportIsDefect_eq hd]
  unfold takeReport
  rw [show (reportTaken s.slots[i] rest).context = s.slots[i].context from rfl, h]

theorem takeReport_verified (hd : defect = true ↔ countsAsDefect s i r) (h : s.slots[i].context.state = .verified) :
    takeReport (checkInputs s) i r (reportTaken s.slots[i] rest) =
      reportInVerified (checkInputs s) i s.slots[i].context.defectNow defect r (judgedSlot s i rest defect) := by
  rw [← judgedSlot_eq hd, ← reportIsDefect_eq hd]
  unfold takeReport
  rw [show (reportTaken s.slots[i] rest).context = s.slots[i].context from rfl, h]

end

/-- Settles O26. -/
theorem reportOutsideACheck : Obligations.ReportOutsideACheck := fun _ _ _ _ _ hr hq hd h =>
  cycleReport_becomes hr hq (takeReport_outside hd h)

/-! ## Rows -/

section
variable {inp : CheckInputs} {i : Slot} {r : CycleReport} {sl : SlotState} {e : MapEntry} {h : HeldTag}

theorem misconnected_iff (he : sl.map.entry = some e) :
    misconnected sl.map h = true ↔ matchResult e h.identity = .noMatch := by
  simp only [misconnected, he, beq_iff_eq]

theorem routeWrong_iff (he : sl.map.entry = some e) (p : Protect) :
    routeWrong sl.map h p = true ↔ routeMatches e sl.map.route h p = false := by
  simp only [routeWrong, he, Bool.not_eq_true']

theorem changedTag_of_changed (hc : r.heldChanged = true) (hh : r.held = some h) : changedTag r = some h := by
  rw [changedTag, if_pos hc, hh]

theorem changedTag_of_same (hc : r.heldChanged = false) : changedTag r = none := by
  rw [changedTag, if_neg (Bool.eq_false_iff.mp hc)]

/-- The rows of R81 for a report that is no defect and carries a held tag. -/
theorem reportInSettling_held (he : sl.map.entry = some e) (hh : r.held = some h) :
    reportInSettling inp i false r sl =
      if matchResult e h.identity = .noMatch then enterFailed inp i .misconnected sl
      else if h.windowFlag = true then waitFor .farWindow sl
      else if h.epoch ≠ sl.map.expectedEpoch then waitFor .staleEpoch sl
      else if routeMatches e sl.map.route h r.protect = false then enterFailed inp i .routeMismatch sl
      else enterSoaking sl := by
  simp only [reportInSettling, hh, misconnected_iff he, routeWrong_iff he, Bool.false_eq_true, if_false]

theorem reportInSettling_none (hh : r.held = none) : reportInSettling inp i false r sl = waitFor .noTag sl := by
  simp only [reportInSettling, hh, Bool.false_eq_true, if_false]

/-- The rows of R84 in their order. -/
theorem reportInSoaking_rows (defect : Bool) (he : sl.map.entry = some e) (hh : r.heldChanged = true → r.held = some h) :
    reportInSoaking inp i defect r sl =
      if r.heldChanged = true ∧ matchResult e h.identity = .noMatch then enterFailed inp i .misconnected sl
      else if defect = true then checkRestart inp i .restartDefect sl
      else if r.heldChanged = true ∧ h.windowFlag = true then checkRestart inp i .restartFarWindow sl
      else if r.heldChanged = true ∧ h.epoch ≠ sl.map.expectedEpoch then enterFailed inp i .staleEpoch sl
      else if r.heldChanged = true ∧ routeMatches e sl.map.route h r.protect = false then
        enterFailed inp i .routeMismatch sl
      else reportGoesOnSoaking inp i r sl := by
  cases hc : r.heldChanged with
  | false => simp only [reportInSoaking, changedTag_of_same hc, Bool.false_eq_true, false_and, if_false]
  | true =>
    simp only [reportInSoaking, changedTag_of_changed hc (hh hc), misconnected_iff he, routeWrong_iff he, true_and]

/-- The rows of R90 in their order. -/
theorem reportInVerified_rows (wasDefect defect : Bool) (he : sl.map.entry = some e)
    (hh : r.heldChanged = true → r.held = some h) :
    reportInVerified inp i wasDefect defect r sl =
      if r.heldChanged = true ∧ matchResult e h.identity = .noMatch then enterFailed inp i .misconnected sl
      else if r.heldChanged = true ∧ h.windowFlag = true then checkRestart inp i .restartFarWindow sl
      else if r.heldChanged = true ∧ h.epoch ≠ sl.map.expectedEpoch then enterFailed inp i .staleEpoch sl
      else if r.heldChanged = true ∧ routeMatches e sl.map.route h r.protect = false then
        enterFailed inp i .routeMismatch sl
      else reportStaysVerified wasDefect defect r sl := by
  cases hc : r.heldChanged with
  | false => simp only [reportInVerified, changedTag_of_same hc, Bool.false_eq_true, false_and, if_false]
  | true =>
    simp only [reportInVerified, changedTag_of_changed hc (hh hc), misconnected_iff he, routeWrong_iff he, true_and]

theorem reportIsErrored_iff : reportIsErrored r = true ↔ r.result ≠ .valid ∨ 0 < r.parityErrors := by
  simp [reportIsErrored]

/-- The errored cycles of a slot after one more (R86). -/
def erroredCounted (sl : SlotState) : SlotState :=
  { sl with context := { sl.context with erroredCount := satInc Config.countMax sl.context.erroredCount } }

/-- Rows 6 and 7 of R84, and the report that none applies to. -/
theorem reportGoesOnSoaking_rows (he : sl.map.entry = some e) :
    reportGoesOnSoaking inp i r sl =
      if r.protectChanged = true then checkRestart inp i .restartProtect sl
      else if reportIsErrored r = true then
        if inp.profiles[e.profile].erroredAllowance < (erroredCounted sl).context.erroredCount then
          enterFailed inp i .errors (erroredCounted sl)
        else erroredCounted sl
      else sl := by
  unfold reportGoesOnSoaking erroredInSoaking
  dsimp only
  rw [slotProfile_of_entry he]
  rfl

/-- A report that changes nothing of R90 acts on the strikes, the defect timer, the errored cycles and, for a protect
change, the filter (R86, R90, R91). -/
theorem reportStaysVerified_eq (wasDefect defect : Bool) :
    reportStaysVerified wasDefect defect r sl = { sl with
      context := { sl.context with
        strikes := if r.protectChanged then 0 else sl.context.strikes
        defectTimer := if defect && wasDefect then sl.context.defectTimer else 0
        erroredCount := if reportIsErrored r then satInc Config.countMax sl.context.erroredCount
          else sl.context.erroredCount }
      inFlight := { sl.inFlight with
        filterResets := if r.protectChanged then sl.inFlight.filterResets ++ [.protectChanged]
          else sl.inFlight.filterResets } } := by
  unfold reportStaysVerified
  cases r.protectChanged <;> rfl

end

/-- Settles O27: the report is judged, and the rows of R81 decide. -/
theorem reportInSettling_holds : Obligations.ReportInSettling := by
  intro s i r rest defect e hr hq hd hs he sl waits
  obtain ⟨t, hexec, honly, hslot⟩ := cycleReport_becomes hr hq (takeReport_settling hd hs)
  refine ⟨t, hexec, honly, ?_, ?_, ?_⟩
  · rintro rfl
    exact hslot
  · rintro rfl hn
    exact hslot.trans (reportInSettling_none hn)
  · rintro h rfl hh wrongSource wrongRoute
    have rows := hslot.trans (reportInSettling_held (sl := sl) he hh)
    refine ⟨fun h1 => ?_, fun h1 h2 => ?_, fun h1 h2 h3 => ?_, fun h1 h2 h3 h4 => ?_, fun h1 h2 h3 h4 => ?_⟩
    · rwa [if_pos h1] at rows
    · rwa [if_neg h1, if_pos h2] at rows
    · rwa [if_neg h1, if_neg (Bool.eq_false_iff.mp h2), if_pos h3] at rows
    · rwa [if_neg h1, if_neg (Bool.eq_false_iff.mp h2), if_neg (not_not.mpr h3), if_pos h4] at rows
    · rwa [if_neg h1, if_neg (Bool.eq_false_iff.mp h2), if_neg (not_not.mpr h3), if_neg h4] at rows

/-- Settles O28: the report is judged, and the rows of R84 decide. -/
theorem reportInSoaking_holds : Obligations.ReportInSoaking := by
  intro s i r rest defect e h hr hq hd hs he hh inp sl row1 row3 row4 row5 row6 errored counted
  obtain ⟨t, hexec, honly, hslot⟩ := cycleReport_becomes hr hq (takeReport_soaking hd hs)
  have rows := hslot.trans (reportInSoaking_rows (sl := sl) defect he hh)
  refine ⟨t, hexec, honly, fun h1 => ?_, fun h1 h2 => ?_, fun h1 h2 h3 => ?_, fun h1 h2 h3 h4 => ?_,
    fun h1 h2 h3 h4 h5 => ?_, fun h1 h2 h3 h4 h5 => ?_⟩
  · rwa [if_pos h1] at rows
  · rwa [if_neg h1, if_pos h2] at rows
  · rwa [if_neg h1, if_neg (Bool.eq_false_iff.mp h2), if_pos h3] at rows
  · rwa [if_neg h1, if_neg (Bool.eq_false_iff.mp h2), if_neg h3, if_pos h4] at rows
  · rwa [if_neg h1, if_neg (Bool.eq_false_iff.mp h2), if_neg h3, if_neg h4, if_pos h5] at rows
  · rw [if_neg h1, if_neg (Bool.eq_false_iff.mp h2), if_neg h3, if_neg h4, if_neg h5,
      reportGoesOnSoaking_rows (sl := sl) he] at rows
    refine ⟨fun h6 => ?_, fun h6 h7 h8 => ?_, fun h6 h7 h8 => ?_, fun h6 h7 => ?_⟩
    · rwa [if_pos h6] at rows
    · rw [if_neg h6, if_pos (reportIsErrored_iff.mpr h7)] at rows
      exact rows.trans (if_pos h8)
    · rw [if_neg h6, if_pos (reportIsErrored_iff.mpr h7)] at rows
      exact rows.trans (if_neg (Nat.not_lt.mpr h8))
    · rwa [if_neg h6, if_neg (mt reportIsErrored_iff.mp h7)] at rows

/-- Settles O29: the report is judged, and the rows of R90 decide. -/
theorem reportInVerified_holds : Obligations.ReportInVerified := by
  intro s i r rest defect e h hr hq hd hs he hh inp sl row1 row2 row3 row4 errored
  obtain ⟨t, hexec, honly, hslot⟩ := cycleReport_becomes hr hq (takeReport_verified hd hs)
  have rows := hslot.trans (reportInVerified_rows (sl := sl) s.slots[i].context.defectNow defect he hh)
  refine ⟨t, hexec, honly, fun h1 => ?_, fun h1 h2 => ?_, fun h1 h2 h3 => ?_, fun h1 h2 h3 h4 => ?_,
    fun h1 h2 h3 h4 => ?_⟩
  · rwa [if_pos h1] at rows
  · rwa [if_neg h1, if_pos h2] at rows
  · rwa [if_neg h1, if_neg h2, if_pos h3] at rows
  · rwa [if_neg h1, if_neg h2, if_neg h3, if_pos h4] at rows
  · rw [if_neg h1, if_neg h2, if_neg h3, if_neg h4, reportStaysVerified_eq] at rows
    refine ⟨_, _, _, _, rows, fun hp => ?_, fun hp => ?_, fun hd hw => ?_, fun hd hw => ?_, fun hd => ?_, fun hx => ?_,
      fun hx => ?_⟩
    · rw [if_pos hp, if_pos hp]
      exact ⟨rfl, rfl⟩
    · rw [hp]
      exact ⟨rfl, rfl⟩
    · rw [hd, hw]
      rfl
    · rw [hd, hw]
      rfl
    · rw [hd]
      rfl
    · exact if_pos (reportIsErrored_iff.mpr hx)
    · exact if_neg (mt reportIsErrored_iff.mp hx)

/-! ## Stream loss -/

section
variable {s : State} {i : Slot}

/-- The slot with a waiting stream loss taken. -/
def lossTaken (sl : SlotState) : SlotState :=
  { sl with inFlight := { sl.inFlight with losses := sl.inFlight.losses - 1 } }

theorem execStreamLoss_eq (hr : s.resetHeld = false) (hq : 0 < s.slots[i].inFlight.losses) :
    exec (.streamLoss i) s = .next (s.modSlot i fun sl => takeStreamLoss (checkInputs s) i (lossTaken sl)) := by
  show execStreamLoss i s = _
  rw [execStreamLoss, act_running hr, if_neg (Nat.pos_iff_ne_zero.mp hq)]
  rfl

end

section
variable {inp : CheckInputs} {i : Slot} {sl : SlotState}

/-- The slot marked for stream loss, before the effect by its state (R75). -/
def lossMarked (sl : SlotState) : SlotState :=
  { sl with context := { sl.context with lossMark := true, defectNow := true } }

theorem takeStreamLoss_outside
    (h : sl.context.state = .idle ∨ sl.context.state = .window ∨ sl.context.state = .failed) :
    takeStreamLoss inp i sl = lossMarked sl := by
  unfold takeStreamLoss lossMarked
  rcases h with h | h | h <;> rw [h]

theorem takeStreamLoss_settling (h : sl.context.state = .settling) :
    takeStreamLoss inp i sl = waitFor .defect (lossMarked sl) := by
  unfold takeStreamLoss lossMarked
  rw [h]

theorem takeStreamLoss_soaking (h : sl.context.state = .soaking) :
    takeStreamLoss inp i sl = checkRestart inp i .restartDefect (lossMarked sl) := by
  unfold takeStreamLoss lossMarked
  rw [h]

/-- In VERIFIED the defect timer runs on, or starts at 0 when defect now was clear (R75). -/
theorem takeStreamLoss_verified_defect (h : sl.context.state = .verified) (hd : sl.context.defectNow = true) :
    takeStreamLoss inp i sl = lossMarked sl := by
  unfold takeStreamLoss lossMarked
  rw [h, if_pos hd]

theorem takeStreamLoss_verified_clear (h : sl.context.state = .verified) (hd : sl.context.defectNow = false) :
    takeStreamLoss inp i sl =
      { lossMarked sl with context := { (lossMarked sl).context with defectTimer := 0 } } := by
  unfold takeStreamLoss lossMarked
  rw [h, if_neg (Bool.eq_false_iff.mp hd)]

end

/-- Settles O30, by the state. -/
theorem streamLossActsByState : Obligations.StreamLossActsByState := by
  intro s i hr hq c sl
  obtain ⟨honly, hslot⟩ := slotBecomes_modSlot s i fun sl => takeStreamLoss (checkInputs s) i (lossTaken sl)
  refine ⟨_, execStreamLoss_eq hr hq, honly, fun h => ?_, fun h => ?_, fun h => ?_, fun h hd => ?_, fun h hd => ?_⟩
  · exact hslot.trans (takeStreamLoss_outside h)
  · exact hslot.trans (takeStreamLoss_settling h)
  · exact hslot.trans (takeStreamLoss_soaking h)
  · exact hslot.trans (takeStreamLoss_verified_defect h hd)
  · exact hslot.trans (takeStreamLoss_verified_clear h hd)

end Sys2Proof.Machine
end

section
/-! PROOFS. The requests that act on the checks: windows over a range (O44) and REVERIFY (O48). -/

namespace Sys2Proof.Machine

/-! ## Windows -/

section
variable {s : State} {side : Side} {r : Request} {p : List Byte}

theorem execOpenWindow_eq (hr : s.resetHeld = false) (side : Side) :
    exec (.openWindow side) s = .next (serve s side .openWindow answerOpenWindow) := by
  show execOpenWindow side s = _
  rw [execOpenWindow, act_running hr]

theorem execCloseWindow_eq (hr : s.resetHeld = false) (side : Side) :
    exec (.closeWindow side) s = .next (serve s side .closeWindow answerCloseWindow) := by
  show execCloseWindow side s = _
  rw [execCloseWindow, act_running hr]

/-- The slots of a range that a test selects are counted before the request (R79). -/
theorem countSlots_eq (s : State) (first count : Nat) {test : SlotState → Bool} {P : Slot → Prop} [DecidablePred P]
    (h : ∀ i : Slot, test s.slots[i] = true ↔ P i) :
    countSlots s first count test =
      ((List.finRange 128).filter fun i =>
        decide ((first ≤ i.val ∧ i.val < first + count) ∧ P i)).length := by
  refine congrArg List.length (List.filter_congr fun i _ => ?_)
  rw [Bool.eq_iff_iff, Bool.and_eq_true, h i, inRange, decide_eq_true_eq, decide_eq_true_eq]

/-- Every slot of a range is replaced by a function of it, the others stay (R79). -/
def mapRange (s : State) (first count : Nat) (f : SlotState → SlotState) : State :=
  s.mapSlots fun i sl => if inRange first count i then f sl else sl

theorem mapRange_within {first count : Nat} (f : SlotState → SlotState) {i : Slot}
    (h : first ≤ i.val ∧ i.val < first + count) : (mapRange s first count f).slots[i] = f s.slots[i] := by
  rw [mapRange, State.mapSlots_slot, inRange, if_pos (decide_eq_true h)]

theorem mapRange_outside {first count : Nat} (f : SlotState → SlotState) {i : Slot}
    (h : ¬ (first ≤ i.val ∧ i.val < first + count)) : (mapRange s first count f).slots[i] = s.slots[i] := by
  rw [mapRange, State.mapSlots_slot, inRange, if_neg (by simpa using h)]

theorem mapRange_management (s : State) (first count : Nat) (f : SlotState → SlotState) :
    (mapRange s first count f).management = s.management := State.mapSlots_management ..

/-- The reply data of a window request: the slots changed and the rest of the range (R167, R168). -/
def windowData (changed count : Nat) : List Byte := [BitVec.ofNat 8 changed, BitVec.ofNat 8 (count - changed)]

/-- The answer to a window request: a range past slot 127 is refused, else each slot of it is changed by a function, and
those that a test selects are counted (R79, R167, R168). -/
def answerWindow (s : State) (p : List Byte) (test : SlotState → Bool) (f : SlotState → SlotState) : Answer :=
  let first := (byteAt p 1).toNat
  let count := (byteAt p 2).toNat
  if 128 < first + count then refuse s .value
  else doneWith (mapRange s first count f) (windowData (countSlots s first count test) count)

theorem answerOpenWindow_eq (s : State) (p : List Byte) :
    answerOpenWindow s p = answerWindow s p (fun sl => sl.context.state != .window) (openSlot (checkInputs s)) := by
  unfold answerOpenWindow
  dsimp only
  rw [beBytes_one, beBytes_one]
  rfl

theorem answerCloseWindow_eq (s : State) (p : List Byte) :
    answerCloseWindow s p = answerWindow s p (fun sl => sl.context.state == .window) (closeSlot (halfAt p 3)) := by
  unfold answerCloseWindow
  dsimp only
  rw [beBytes_one, beBytes_one]
  rfl

/-- A window request takes its effect on the slots of its range alone, and its reply (R79). -/
theorem serve_window {c : Command} {answer : State → List Byte → Answer} {test : SlotState → Bool}
    {f : SlotState → SlotState} {P : Slot → Prop} [DecidablePred P] (hf : findRequest s side c = some r)
    (hc : (c == .restart) = false) (ha : answer s r.payload = answerWindow s r.payload test f)
    (hP : ∀ i : Slot, test s.slots[i] = true ↔ P i) :
    let first := (byteAt r.payload 1).toNat
    let count := (byteAt r.payload 2).toNat
    let t := serve s side c answer
    let within := fun i : Slot => first ≤ i.val ∧ i.val < first + count
    (128 < first + count → Refused side c r .value [] s t) ∧
    (first + count ≤ 128 →
      (Replied side c r .done
          (windowData ((List.finRange 128).filter fun i => decide (within i ∧ P i)).length count) false s t ∧
        t = { s with slots := t.slots, management := t.management } ∧ OnlyReplies s.management t.management ∧
        ∀ i, ¬ within i → t.slots[i] = s.slots[i]) ∧
      ∀ i, within i → t.slots[i] = f s.slots[i]) := by
  intro first count t within
  refine ⟨fun h => serve_refused hf hc (ha.trans (if_pos h)), fun h => ?_⟩
  have hdone := ha.trans (if_neg (Nat.not_lt.mpr h))
  obtain ⟨hreplied, honly, hstate⟩ := serve_done hf hc hdone (mapRange_management ..)
  have hslots : t.slots = (mapRange s first count f).slots := by rw [show t = _ from hstate]
  rw [countSlots_eq s first count hP] at hreplied
  refine ⟨⟨hreplied, ?_, honly, fun i hi => ?_⟩, fun i hi => ?_⟩
  · rw [hslots]
    exact hstate
  · rw [hslots, mapRange_outside f hi]
  · rw [hslots, mapRange_within f hi]

end

/-! ## What the requests make of a slot -/

section
variable {inp : CheckInputs} {sl : SlotState}

theorem captureBaseline_eq (inp : CheckInputs) (sl : SlotState) :
    captureBaseline inp sl =
      if (slotProfile inp sl.map).minSamples ≤ sl.probe.sampleCount then
        sl.probe.average.toList.map fun a => (sl.tag.heldProtect, a)
      else [] := by
  unfold captureBaseline
  cases sl.probe.average with
  | none => simp
  | some a => rfl

theorem openSlot_window (h : sl.context.state = .window) : openSlot inp sl = sl := by rw [openSlot, h]

theorem openSlot_quiet
    (h : sl.context.state = .idle ∨ sl.context.state = .settling ∨ sl.context.state = .failed) :
    openSlot inp sl = toWindow sl := by
  rcases h with h | h | h <;> rw [openSlot, h]

theorem openSlot_soaking (h : sl.context.state = .soaking) : openSlot inp sl = sendWithdraw (toWindow sl) := by
  rw [openSlot, h]

theorem openSlot_verified (h : sl.context.state = .verified) :
    openSlot inp sl = sendWithdraw (toWindow { sl with inFlight := { sl.inFlight with
      baselines := sl.inFlight.baselines ++ captureBaseline inp sl } }) := by
  rw [openSlot, h]

theorem closeSlot_unopened (epoch : Half) (h : sl.context.state ≠ .window) : closeSlot epoch sl = sl := if_neg h

/-- The slot with its epochs written and its last cause made absent (R78). -/
def windowClosed (epoch : Half) (sl : SlotState) : SlotState :=
  { sl with
    map := { sl.map with originEpoch := epoch, expectedEpoch := epoch }
    context := { sl.context with lastCause := none } }

theorem closeSlot_opened (epoch : Half) (h : sl.context.state = .window) :
    closeSlot epoch sl =
      if sl.map.rxRole = .terminate ∧ sl.map.entry.isSome then enterSettlingAfresh (windowClosed epoch sl)
      else { windowClosed epoch sl with context := { (windowClosed epoch sl).context with state := .idle } } :=
  if_pos h

end

/-- Settles O44, one command at a time, by the state of the slot. -/
theorem windowsOpenAndCloseOverARange : Obligations.WindowsOpenAndCloseOverARange := by
  intro s side r hr first count within answered
  refine ⟨fun hf => ?_, fun hf => ?_⟩
  · obtain ⟨hrefused, hdone⟩ := serve_window (P := fun i => s.slots[i].context.state ≠ .window) hf rfl
      (answerOpenWindow_eq s r.payload) fun i => bne_iff_ne
    refine ⟨_, execOpenWindow_eq hr side, hrefused, fun h => ?_⟩
    obtain ⟨hanswered, hslot⟩ := hdone h
    refine ⟨hanswered, fun i hi => ⟨fun h => ?_, fun h => ?_, fun h => ?_, fun h => ?_⟩⟩
    · exact (hslot i hi).trans (openSlot_window h)
    · exact (hslot i hi).trans (openSlot_quiet h)
    · exact (hslot i hi).trans (openSlot_soaking h)
    · rw [hslot i hi, openSlot_verified h, captureBaseline_eq]
      rfl
  · obtain ⟨hrefused, hdone⟩ := serve_window (P := fun i => s.slots[i].context.state = .window) hf rfl
      (answerCloseWindow_eq s r.payload) fun i => beq_iff_eq
    refine ⟨_, execCloseWindow_eq hr side, hrefused, fun h => ?_⟩
    obtain ⟨hanswered, hslot⟩ := hdone h
    refine ⟨hanswered, fun i hi => ⟨fun h => ?_, fun h hrole hentry => ?_, fun h hnot => ?_⟩⟩
    · exact (hslot i hi).trans (closeSlot_unopened _ h)
    · exact (hslot i hi).trans
        ((closeSlot_opened _ h).trans (if_pos ⟨hrole, Option.isSome_iff_ne_none.mpr hentry⟩))
    · refine (hslot i hi).trans ((closeSlot_opened _ h).trans (if_neg ?_))
      rintro ⟨hrole, hentry⟩
      rcases hnot with hmonitor | hnone
      · rw [hmonitor] at hrole
        cases hrole
      · rw [hnone] at hentry
        cases hentry

/-! ## REVERIFY -/

section
variable {s : State} {p : List Byte} {i : Slot}

theorem execReverify_eq (hr : s.resetHeld = false) (side : Side) :
    exec (.reverify side) s = .next (serve s side .reverify answerReverify) := by
  show execReverify side s = _
  rw [execReverify, act_running hr]

theorem answerReverify_noSlot (h : slotOf (byteAt p 1) = none) : answerReverify s p = refuse s .value := by
  simp only [answerReverify, h]

theorem answerReverify_unchecked (h : slotOf (byteAt p 1) = some i)
    (hs : ¬ beingChecked s.slots[i].context.state = true) : answerReverify s p = refuse s .state := by
  simp only [answerReverify, h, if_neg hs]

theorem answerReverify_checked (h : slotOf (byteAt p 1) = some i)
    (hs : beingChecked s.slots[i].context.state = true) :
    answerReverify s p = doneWith (s.modSlot i reverifySlot) [] := by
  simp only [answerReverify, h, if_pos hs]
  rfl

end

/-- Settles O48, by the slot number and the state of the slot. -/
theorem reverifyStartsTheCheckAfresh : Obligations.ReverifyStartsTheCheckAfresh := by
  intro s side r hr hf
  refine ⟨_, execReverify_eq hr side, fun h => ?_, fun i hi => ⟨fun h => ?_, fun hidle hwindow => ?_⟩⟩
  · exact serve_refused hf rfl (answerReverify_noSlot (slotOf_eq_none h))
  · refine serve_refused hf rfl (answerReverify_unchecked (slotOf_eq_some hi) fun hc => ?_)
    obtain ⟨hidle, hwindow⟩ := (beingChecked_iff _).mp hc
    exact h.elim hidle hwindow
  · have hdone := answerReverify_checked (slotOf_eq_some hi) ((beingChecked_iff _).mpr ⟨hidle, hwindow⟩)
    obtain ⟨hreplied, honly, hstate⟩ := serve_done hf rfl hdone rfl
    have hslots : (serve s side .reverify answerReverify).slots = (s.modSlot i reverifySlot).slots := by rw [hstate]
    refine ⟨hreplied, honly, ?_, fun j hj => ?_, ?_⟩
    · rw [hslots]
      exact hstate
    · rw [hslots]
      exact State.modSlot_other s hj _
    · rw [hslots]
      exact State.modSlot_same s i _

end Sys2Proof.Machine
end

section
/-! PROOFS. The report unit: what leaves it and the finding-pending mirrors alone, one equation per operation. -/

namespace Sys2Proof.Machine

/-! ## The report unit and its mirrors -/

/-- What the order of the report unit is about: the unit, and the finding-pending mirror of each context (R97). -/
def reportView (s : State) : ReportUnit × (Slot → Bool) := (s.report, fun i => s.slots[i].context.findingPending)

section
variable {s t : State}

theorem reportView_report (h : reportView t = reportView s) : t.report = s.report := congrArg Prod.fst h

theorem reportView_pending (h : reportView t = reportView s) (i : Slot) :
    t.slots[i].context.findingPending = s.slots[i].context.findingPending := congrFun (congrArg Prod.snd h) i

/-- Every slot is replaced by one with the same mirror. -/
theorem reportView_vectorOf {g : Slot → SlotState} (hr : t.report = s.report) (hs : t.slots = vectorOf g)
    (h : ∀ i : Slot, (g i).context.findingPending = s.slots[i].context.findingPending) :
    reportView t = reportView s := by
  refine Prod.ext hr (funext fun i => ?_)
  show t.slots[i].context.findingPending = _
  rw [hs, vectorOf_get, h]
  rfl

/-- One slot is replaced by one with the same mirror. -/
theorem reportView_set {i : Slot} {x : SlotState} (hr : t.report = s.report) (hs : t.slots = s.slots.set i x)
    (h : x.context.findingPending = s.slots[i].context.findingPending) : reportView t = reportView s := by
  refine Prod.ext hr (funext fun j => ?_)
  show t.slots[j].context.findingPending = s.slots[j].context.findingPending
  rw [hs, show (s.slots.set i x)[j] = _ from State.modSlot_slot s i j fun _ => x]
  split
  · next hj => rw [hj, h]
  · rfl

theorem reportView_when {p : Prop} [Decidable p] (h : reportView t = reportView s) :
    reportView (if p then t else s) = reportView s := by
  rw [apply_ite reportView, h, ite_self]

theorem reportView_unless {p : Prop} [Decidable p] (h : reportView t = reportView s) :
    reportView (if p then s else t) = reportView s := by
  rw [apply_ite reportView, h, ite_self]

end

/-! ## Contexts -/

section
variable (inp : CheckInputs) (i : Slot) (sl : SlotState)

@[simp] theorem enterFailed_pending (cause : Cause) :
    (enterFailed inp i cause sl).context.findingPending = sl.context.findingPending := by rw [enterFailed_eq]

@[simp] theorem enterVerified_pending (baselineSet : Bool) :
    (enterVerified inp i baselineSet sl).context.findingPending = sl.context.findingPending := rfl

@[simp] theorem enterSoaking_pending : (enterSoaking sl).context.findingPending = sl.context.findingPending := rfl

@[simp] theorem enterSettlingAfresh_pending :
    (enterSettlingAfresh sl).context.findingPending = sl.context.findingPending := rfl

@[simp] theorem checkRestart_pending (cause : Cause) :
    (checkRestart inp i cause sl).context.findingPending = sl.context.findingPending := by
  rw [checkRestart_eq]
  split
  · exact enterFailed_pending ..
  · rfl

@[simp] theorem waitFor_pending (reason : WaitReason) :
    (waitFor reason sl).context.findingPending = sl.context.findingPending := rfl

@[simp] theorem reportInSettling_pending (defect : Bool) (r : CycleReport) :
    (reportInSettling inp i defect r sl).context.findingPending = sl.context.findingPending := by
  unfold reportInSettling
  repeat' split
  all_goals simp only [waitFor_pending, enterFailed_pending, enterSoaking_pending]

@[simp] theorem reportGoesOnSoaking_pending (r : CycleReport) :
    (reportGoesOnSoaking inp i r sl).context.findingPending = sl.context.findingPending := by
  unfold reportGoesOnSoaking erroredInSoaking
  dsimp only
  repeat' split
  all_goals simp only [checkRestart_pending, enterFailed_pending]

@[simp] theorem reportInSoaking_pending (defect : Bool) (r : CycleReport) :
    (reportInSoaking inp i defect r sl).context.findingPending = sl.context.findingPending := by
  unfold reportInSoaking
  repeat' split
  all_goals simp only [checkRestart_pending, enterFailed_pending, reportGoesOnSoaking_pending]

@[simp] theorem reportStaysVerified_pending (wasDefect defect : Bool) (r : CycleReport) :
    (reportStaysVerified wasDefect defect r sl).context.findingPending = sl.context.findingPending := by
  rw [reportStaysVerified_eq]

@[simp] theorem reportInVerified_pending (wasDefect defect : Bool) (r : CycleReport) :
    (reportInVerified inp i wasDefect defect r sl).context.findingPending = sl.context.findingPending := by
  unfold reportInVerified
  repeat' split
  all_goals simp only [checkRestart_pending, enterFailed_pending, reportStaysVerified_pending]

theorem takeReport_pending (r : CycleReport) :
    (takeReport inp i r sl).context.findingPending = sl.context.findingPending := by
  unfold takeReport
  dsimp only
  split
  case h_1 => exact reportInSettling_pending ..
  case h_2 => exact reportInSoaking_pending ..
  case h_3 => exact reportInVerified_pending ..
  all_goals rfl

theorem takeStreamLoss_pending : (takeStreamLoss inp i sl).context.findingPending = sl.context.findingPending := by
  unfold takeStreamLoss
  dsimp only
  split
  case h_2 => exact checkRestart_pending ..
  all_goals rfl

@[simp] theorem decideSoakEnd_pending : (decideSoakEnd inp i sl).context.findingPending = sl.context.findingPending := by
  unfold decideSoakEnd
  dsimp only
  repeat' split
  all_goals simp only [enterFailed_pending, enterVerified_pending]

theorem takeBoundary_pending : (takeBoundary inp i sl).context.findingPending = sl.context.findingPending := by
  unfold takeBoundary boundaryInSettling boundaryInSoaking boundaryInVerified
  dsimp only
  repeat' split
  all_goals simp only [enterFailed_pending, decideSoakEnd_pending]

theorem takeSample_pending : (takeSample inp i sl).context.findingPending = sl.context.findingPending := by
  unfold takeSample
  split
  case h_1 =>
    split
    · rfl
    · rw [strikeTest_eq]
      split
      · exact enterFailed_pending ..
      · rfl
    · unfold learnBaseline
      split <;> rfl
  all_goals rfl

theorem openSlot_pending : (openSlot inp sl).context.findingPending = sl.context.findingPending := by
  unfold openSlot
  split <;> rfl

theorem closeSlot_pending (epoch : Half) :
    (closeSlot epoch sl).context.findingPending = sl.context.findingPending := by
  unfold closeSlot
  dsimp only
  repeat' split
  all_goals rfl

/-- The restart clears the mirror, but for a slot whose record the report unit still holds (R97, R103). -/
theorem restartSlot_pending (stillQueued : Bool) :
    (restartSlot stillQueued sl).context.findingPending = stillQueued := by
  unfold restartSlot
  dsimp only
  split <;> rfl

end

/-! ## Boundaries and the probe engine -/

theorem rotationStep_reportView (s : State) : reportView (rotationStep s) = reportView s := by
  unfold rotationStep
  split
  · rfl
  · split
    · rfl
    · exact reportView_set rfl rfl rfl

theorem probeBoundary_reportView (s : State) : reportView (probeBoundary s) = reportView s := by
  have counted (u : State) : reportView (countInterval u) = reportView u := by
    unfold countInterval
    split
    · exact rotationStep_reportView { u with probe := _ }
    · rfl
  exact (counted _).trans (reportView_vectorOf rfl rfl fun _ => rfl)

theorem engineBoundary_reportView (s : State) : reportView (engineBoundary s) = reportView s :=
  reportView_when (probeBoundary_reportView s)

theorem contextBoundary_reportView (s : State) (i : Slot) : reportView (contextBoundary s i) = reportView s :=
  reportView_when (reportView_set rfl rfl (takeBoundary_pending ..))

theorem boundaryAt_reportView (target : BoundaryAt) (s : State) : reportView (boundaryAt target s) = reportView s := by
  cases target with
  | timebase => exact reportView_unless (reportView_vectorOf rfl rfl fun _ => rfl)
  | context i => exact contextBoundary_reportView s i
  | probeEngine => exact engineBoundary_reportView s

/-- A change of one slot's probe state alone. -/
theorem modProbe_reportView (s : State) (i : Slot) (f : SlotState → SlotProbe) :
    reportView (s.modSlot i fun sl => { sl with probe := f sl }) = reportView s :=
  reportView_set rfl rfl rfl

theorem matchedEcho_reportView (s : State) (i : Slot) (launch : Stamp) (h : EchoHandoff) :
    reportView (matchedEcho s i launch h) = reportView s := by
  unfold matchedEcho
  dsimp only
  split
  · rfl
  · split
    · exact reportView_set rfl rfl rfl
    · rfl

theorem takeEcho_reportView (s : State) (i : Slot) (h : EchoHandoff) : reportView (takeEcho s i h) = reportView s := by
  unfold takeEcho
  dsimp only
  split
  · rfl
  · refine (modProbe_reportView ..).trans ?_
    split
    · exact matchedEcho_reportView ..
    · exact reportView_unless rfl

theorem takeHandoff_reportView (s : State) (i : Slot) (h : EchoHandoff) :
    reportView (takeHandoff s i h) = reportView s :=
  reportView_when ((modProbe_reportView ..).trans (takeEcho_reportView s i h))

theorem withdrawSlot_reportView (s : State) (i : Slot) : reportView (withdrawSlot s i) = reportView s :=
  reportView_set rfl rfl rfl

/-! ## Outputs and frames -/

theorem startLineFrame_reportView (s : State) (timing : Timing) (sent : Nat) (f : OutFrame) :
    reportView (startLineFrame s timing sent f) = reportView s := by
  unfold startLineFrame
  dsimp only
  split
  · rfl
  · split
    · rfl
    · exact reportView_vectorOf rfl rfl fun _ => rfl

theorem startLocalFrame_reportView (s : State) (output : Side) :
    reportView (startLocalFrame s output) = reportView s := by
  cases output with
  | line => exact startLineFrame_reportView ..
  | drop => rfl

theorem startCycle_reportView (s : State) : reportView (startCycle s) = reportView s := by
  have latched : reportView (latchCycle s) = reportView s := reportView_vectorOf rfl rfl fun _ => rfl
  unfold startCycle
  split
  · rfl
  · split
    · refine Eq.trans ?_ latched
      exact reportView_vectorOf rfl rfl fun _ => rfl
    · rfl

theorem startOutputs_reportView (s : State) : reportView (startOutputs s) = reportView s :=
  (startCycle_reportView _).trans ((startLocalFrame_reportView _ .line).trans (startLocalFrame_reportView s .drop))

theorem cutCycle_reportView (s : State) (sent : Nat) : reportView (cutCycle s sent) = reportView s :=
  reportView_vectorOf rfl rfl fun _ => rfl

theorem leaveFollow_reportView (s : State) (output : Side) (sent : Nat) :
    reportView (leaveFollow s output sent) = reportView s := by
  rw [leaveFollow_rest]
  rfl

theorem deliverSlot_pending (slipped : Bool) (p : Phase) (start : Option Stamp) (b : SlotBytes) (sl : SlotState) :
    (deliverSlot slipped p start b sl).context.findingPending = sl.context.findingPending := by
  unfold deliverSlot
  dsimp only
  split <;> rfl

theorem lineFrame_reportView (s : State) (f : Frame) (sent : Nat) : reportView (lineFrame s f sent) = reportView s := by
  unfold lineFrame
  dsimp only
  split
  case h_4 => exact (leaveFollow_reportView ..).trans (reportView_vectorOf rfl rfl fun _ => rfl)
  all_goals exact reportView_vectorOf rfl rfl fun _ => deliverSlot_pending ..

theorem dropFrame_reportView (s : State) (f : Frame) (sent : Nat) : reportView (dropFrame s f sent) = reportView s := by
  have delivered (u : State) (p : Phase) : reportView (deliverDrop u p f sent) = reportView u := by
    unfold deliverDrop
    dsimp only
    refine (startLineFrame_reportView ..).trans ?_
    split
    · rfl
    · exact cutCycle_reportView { u with management := _ } sent
  unfold dropFrame
  dsimp only
  split
  case h_4 =>
    unfold loseDrop
    dsimp only
    split
    · exact (leaveFollow_reportView ..).trans (cutCycle_reportView { s with receiver := _, management := _ } sent)
    · rfl
  all_goals exact delivered { s with receiver := _ } _

theorem lockedFrame_reportView (s : State) (side : Side) (f : Frame) (sent : Nat) :
    reportView (lockedFrame s side f sent) = reportView s := by
  cases side with
  | line => exact lineFrame_reportView ..
  | drop => exact dropFrame_reportView ..

/-! ## The management channel and the restart -/

theorem startBuffered_reportView (s : State) (output : Side) (skip : Nat) :
    reportView (startBuffered s output skip) = reportView s := by
  unfold startBuffered
  split <;> rfl

theorem endSending_reportView (s : State) (output : Side) : reportView (endSending s output) = reportView s := by
  unfold endSending
  dsimp only
  repeat' split
  all_goals rfl

theorem restartNow_reportView (s : State) (side : Side) (sent : Nat) :
    reportView (restartNow s side sent) = reportView s :=
  reportView_vectorOf rfl rfl fun _ => rfl

theorem takeEffect_reportView (s : State) (side : Side) (sent : Nat) :
    reportView (takeEffect s side sent) = reportView s := by
  unfold takeEffect
  split
  · exact restartNow_reportView ..
  · split
    · rfl
    · exact reportView_when (restartNow_reportView (placeLast s side _) side sent)

/-! ## Requests -/

/-- Taking a request makes of the report unit what its owner's answer makes of it (R158). -/
theorem serve_reportView {side : Side} {c : Command} {r : Request} {s : State} (hf : findRequest s side c = some r)
    (answer : State → List Byte → Answer) :
    reportView (serve s side c answer) = reportView (answer s r.payload).state := by
  rw [serve_state hf]
  rfl

theorem serve_keeps_reportView {answer : State → List Byte → Answer}
    (h : ∀ s p, reportView (answer s p).state = reportView s) (s : State) (side : Side) (c : Command) :
    reportView (serve s side c answer) = reportView s := by
  cases hf : findRequest s side c with
  | none => rw [serve_none hf]
  | some r => rw [serve_reportView hf, h]

section
variable (s : State) (p : List Byte)

theorem answerSetNodeIdentity_reportView : reportView (answerSetNodeIdentity s p).state = reportView s := by
  unfold answerSetNodeIdentity
  repeat' split
  all_goals rfl

/-- A window request keeps the mirrors when its effect on a slot does. -/
theorem answerWindow_reportView {test : SlotState → Bool} {f : SlotState → SlotState}
    (h : ∀ sl, (f sl).context.findingPending = sl.context.findingPending) :
    reportView (answerWindow s p test f).state = reportView s := by
  unfold answerWindow
  dsimp only
  split
  · rfl
  · refine reportView_vectorOf rfl rfl fun i => ?_
    dsimp only
    split
    · exact h _
    · rfl

theorem answerOpenWindow_reportView : reportView (answerOpenWindow s p).state = reportView s := by
  rw [answerOpenWindow_eq]
  exact answerWindow_reportView s p fun _ => openSlot_pending ..

theorem answerCloseWindow_reportView : reportView (answerCloseWindow s p).state = reportView s := by
  rw [answerCloseWindow_eq]
  exact answerWindow_reportView s p fun _ => closeSlot_pending ..

theorem answerSetSlotRoles_reportView : reportView (answerSetSlotRoles s p).state = reportView s := by
  unfold answerSetSlotRoles
  repeat' split
  case isFalse => exact reportView_set rfl rfl rfl
  all_goals rfl

theorem answerLoadMapEntry_reportView : reportView (answerLoadMapEntry s p).state = reportView s := by
  unfold answerLoadMapEntry
  repeat' split
  case isFalse => exact reportView_set rfl rfl rfl
  all_goals rfl

theorem answerClearMapEntry_reportView : reportView (answerClearMapEntry s p).state = reportView s := by
  unfold answerClearMapEntry
  repeat' split
  case isFalse => exact reportView_set rfl rfl rfl
  all_goals rfl

theorem answerLinkRoute_reportView : reportView (answerLinkRoute s p).state = reportView s := by
  unfold answerLinkRoute
  dsimp only
  repeat' split
  case isFalse => exact reportView_set rfl rfl rfl
  all_goals rfl

theorem answerSetProfile_reportView : reportView (answerSetProfile s p).state = reportView s := by
  unfold answerSetProfile
  split <;> rfl

theorem answerReverify_reportView : reportView (answerReverify s p).state = reportView s := by
  unfold answerReverify
  repeat' split
  case isTrue => exact reportView_set rfl rfl (enterSettlingAfresh_pending _)
  all_goals rfl

theorem answerQueryTrail_reportView : reportView (answerQueryTrail s p).state = reportView s := by
  unfold answerQueryTrail
  split <;> rfl

theorem answerQueryTag_reportView : reportView (answerQueryTag s p).state = reportView s := by
  unfold answerQueryTag
  repeat' split
  all_goals rfl

theorem answerQueryRoute_reportView : reportView (answerQueryRoute s p).state = reportView s := by
  unfold answerQueryRoute
  split <;> rfl

end

theorem serveStatus_reportView (s : State) (side : Side) (block : Block) :
    reportView (serveStatus s side block) = reportView s := by
  unfold serveStatus
  dsimp only
  repeat' split
  all_goals rfl

end Sys2Proof.Machine
end

section
/-! PROOFS. What acts on the report unit, and the step invariant (O56). -/

namespace Sys2Proof.Machine

/-! ## The order of the report unit -/

/-- The report unit is in order: ALERT follows its flags and enables, no slot has two records, and every pending finding
has one (R97, R144, R145). -/
def ReportInOrder (s : State) : Prop := AlertFollows s ∧ OneRecordPerSlot s ∧ PendingIsQueued s

theorem ReportInOrder.of_view {s t : State} (hs : ReportInOrder s) (h : reportView t = reportView s) :
    ReportInOrder t := by
  have hr : t.report = s.report := reportView_report h
  obtain ⟨halert, hone, hpending⟩ := hs
  refine ⟨?_, ?_, fun i hi => ?_⟩
  · rwa [AlertFollows, hr]
  · rwa [OneRecordPerSlot, hr]
  · rw [reportView_pending h] at hi
    rw [hr]
    exact hpending i hi

/-- The flags and the enables may change when ALERT is evaluated again: the queue and the mirrors stay (R144, R149,
R150). -/
theorem ReportInOrder.of_alert {s t : State} (hs : ReportInOrder s) (halert : AlertFollows t)
    (hq : t.report.queue = s.report.queue) (ht : t.slots = s.slots) : ReportInOrder t := by
  obtain ⟨-, hone, hpending⟩ := hs
  refine ⟨halert, ?_, fun i hi => ?_⟩
  · rwa [OneRecordPerSlot, hq]
  · rw [ht] at hi
    rw [hq]
    exact hpending i hi

/-! ## The finding queue -/

/-- The slots of the queue's records, in order. -/
def recordSlots (q : List QueuedFinding) : List Slot := q.map fun r => r.finding.slot

theorem hasRecord_iff (q : List QueuedFinding) (i : Slot) : hasRecord q i = true ↔ i ∈ recordSlots q := by
  simp [hasRecord, recordSlots]

theorem replaceRecord_slot (f : Finding) (cls : FindingClass) (r : QueuedFinding) :
    (replaceRecord f cls r).finding.slot = r.finding.slot := by
  unfold replaceRecord
  split
  · next h => exact h.symm
  · rfl

/-- A finding leaves the slots of the queue as they are when its slot has a record, and else appends its slot (R145). -/
theorem recordSlots_enqueue (q : List QueuedFinding) (f : Finding) (cls : FindingClass) :
    recordSlots (enqueue q f cls) = if f.slot ∈ recordSlots q then recordSlots q else recordSlots q ++ [f.slot] := by
  unfold enqueue
  simp only [hasRecord_iff]
  split
  · simp only [recordSlots, List.map_map, Function.comp_def, replaceRecord_slot]
  · simp only [recordSlots, List.map_append, List.map_cons, List.map_nil]

theorem mem_recordSlots_enqueue (q : List QueuedFinding) (f : Finding) (cls : FindingClass) (i : Slot) :
    i ∈ recordSlots (enqueue q f cls) ↔ i ∈ recordSlots q ∨ i = f.slot := by
  rw [recordSlots_enqueue]
  split
  · next h => exact ⟨.inl, fun hi => hi.elim id fun he => he ▸ h⟩
  · rw [List.mem_append, List.mem_singleton]

theorem nodup_recordSlots_enqueue {q : List QueuedFinding} (h : (recordSlots q).Nodup) (f : Finding)
    (cls : FindingClass) : (recordSlots (enqueue q f cls)).Nodup := by
  rw [recordSlots_enqueue]
  split
  · exact h
  · next hf =>
    rw [← List.concat_eq_append]
    exact h.concat hf

/-! ## A finding taken -/

theorem setPending_pending (s : State) (i j : Slot) (b : Bool) :
    (setPending s i b).slots[j].context.findingPending = if j = i then b else s.slots[j].context.findingPending := by
  rw [setPending, State.modSlot_slot]
  split <;> rfl

theorem reportFinding_alert (r : ReportUnit) (f : Finding) :
    (reportFinding r f).alert = alertLevel (reportFinding r f).seen (reportFinding r f).settings.alertEnable := by
  unfold reportFinding
  dsimp only
  split <;> rfl

theorem takeFinding_report (s : State) (f : Finding) : (takeFinding s f).report = reportFinding s.report f := by
  unfold takeFinding
  dsimp only
  split <;> rfl

/-- A finding of an enabled class enters the queue, and its slot's mirror is set (R97, R145). -/
theorem takeFinding_enabled {s : State} {f : Finding} {cls : FindingClass}
    (hc : classOf s.report.settings.severity f.cause = cls) (h : reportEnabled s.report.settings cls = true) :
    (takeFinding s f).report.queue = enqueue s.report.queue f cls ∧
      ∀ j : Slot, (takeFinding s f).slots[j].context.findingPending =
        if j = f.slot then true else s.slots[j].context.findingPending := by
  subst hc
  refine ⟨?_, fun j => ?_⟩
  · rw [takeFinding_report, reportFinding, if_pos h]
  · rw [takeFinding, if_pos h]
    exact setPending_pending ..

/-- A finding of a class that is not reported leaves the queue and the mirrors (R145). -/
theorem takeFinding_disabled {s : State} {f : Finding}
    (h : ¬ reportEnabled s.report.settings (classOf s.report.settings.severity f.cause) = true) :
    (takeFinding s f).report.queue = s.report.queue ∧ (takeFinding s f).slots = s.slots := by
  refine ⟨?_, ?_⟩
  · rw [takeFinding_report, reportFinding, if_neg h]
    rfl
  · rw [takeFinding, if_neg h]

theorem takeFinding_inOrder {s : State} (hs : ReportInOrder s) (f : Finding) : ReportInOrder (takeFinding s f) := by
  have halert : AlertFollows (takeFinding s f) := by
    rw [AlertFollows, takeFinding_report]
    exact reportFinding_alert ..
  by_cases h : reportEnabled s.report.settings (classOf s.report.settings.severity f.cause) = true
  · obtain ⟨hqueue, hmirror⟩ := takeFinding_enabled rfl h
    obtain ⟨-, hone, hpending⟩ := hs
    refine ⟨halert, ?_, fun i hi => ?_⟩
    · rw [OneRecordPerSlot, hqueue]
      exact nodup_recordSlots_enqueue hone f _
    · rw [hqueue, hasRecord_iff, mem_recordSlots_enqueue]
      rw [hmirror i] at hi
      by_cases hif : i = f.slot
      · exact .inr hif
      · rw [if_neg hif] at hi
        exact .inl ((hasRecord_iff _ i).mp (hpending i hi))
  · obtain ⟨hqueue, hslots⟩ := takeFinding_disabled h
    exact hs.of_alert halert hqueue hslots

/-! ## A notice started -/

/-- A notice is started for the record at the head of the queue, which leaves it and whose slot's mirror is cleared; or
nothing happens (R147). -/
theorem startNotice_cases (s : State) (skip : Nat) :
    startNotice s skip = s ∨ ∃ q rest, s.report.queue = q :: rest ∧
      (startNotice s skip).report = { s.report with queue := rest } ∧
      (startNotice s skip).slots = (setPending s q.finding.slot false).slots := by
  unfold startNotice
  split
  · exact .inl rfl
  · next identity destination q hoffered =>
    split
    · have hhead : s.report.queue = q :: s.report.queue.tail := by
        unfold offeredNotice at hoffered
        split at hoffered
        · next hqueue _ _ =>
          cases hoffered
          rw [hqueue, List.tail_cons]
        · cases hoffered
      exact .inr ⟨q, _, hhead, rfl, rfl⟩
    · exact .inl rfl

theorem startNotice_inOrder {s : State} (hs : ReportInOrder s) (skip : Nat) : ReportInOrder (startNotice s skip) := by
  rcases startNotice_cases s skip with h | ⟨q, rest, hqueue, hreport, hslots⟩
  · rw [h]
    exact hs
  · obtain ⟨halert, hone, hpending⟩ := hs
    refine ⟨?_, ?_, fun i hi => ?_⟩
    · rw [AlertFollows, hreport]
      exact halert
    · rw [OneRecordPerSlot, hreport]
      rw [OneRecordPerSlot, hqueue, List.map_cons] at hone
      exact hone.of_cons
    · rw [hslots, setPending_pending] at hi
      rw [hreport, hasRecord_iff]
      by_cases hiq : i = q.finding.slot
      · rw [if_pos hiq] at hi
        cases hi
      · rw [if_neg hiq] at hi
        have hmem := (hasRecord_iff _ i).mp (hpending i hi)
        rw [hqueue, recordSlots, List.map_cons, List.mem_cons] at hmem
        exact hmem.resolve_left hiq

/-! ## Settings, clears and restarts -/

theorem answerSetReporting_inOrder {s : State} (hs : ReportInOrder s) (p : List Byte) :
    ReportInOrder (answerSetReporting s p).state := by
  unfold answerSetReporting
  split
  · exact hs
  · exact hs.of_alert rfl rfl rfl

theorem serveSetReporting_inOrder {s : State} (hs : ReportInOrder s) (side : Side) :
    ReportInOrder (serve s side .setReporting answerSetReporting) := by
  cases hf : findRequest s side .setReporting with
  | none => rwa [serve_none hf]
  | some r => exact (answerSetReporting_inOrder hs r.payload).of_view (serve_reportView hf answerSetReporting)

theorem clearItems_inOrder {s : State} (hs : ReportInOrder s) (p : List Byte) (block : Block) :
    ReportInOrder (clearItems s p block) := by
  cases block
  case reportUnit => exact hs.of_alert rfl rfl rfl
  all_goals exact hs

theorem serveClear_inOrder {s : State} (hs : ReportInOrder s) (side : Side) (block : Block) :
    ReportInOrder (serveClear s side block) := by
  unfold serveClear
  split
  · exact hs
  · next r _ =>
    have cleared : ReportInOrder (if r.todo.contains block then clearItems s r.payload block else s) := by
      split
      · exact clearItems_inOrder hs ..
      · exact hs
    dsimp only
    split <;> exact cleared.of_view rfl

/-- A context's restart sets its mirror only when the queue holds a record of its slot (R97, R103). -/
theorem contextRestart_inOrder {s : State} (hs : ReportInOrder s) {i : Slot} {stillQueued : Bool} (sl : SlotState)
    (h : stillQueued = true → hasRecord s.report.queue i = true) :
    ReportInOrder (s.modSlot i fun _ => restartSlot stillQueued sl) := by
  obtain ⟨halert, hone, hpending⟩ := hs
  refine ⟨halert, hone, fun j hj => ?_⟩
  rw [State.modSlot_slot] at hj
  split at hj
  · next hji =>
    rw [restartSlot_pending] at hj
    rw [hji]
    exact h hj
  · exact hpending j hj

theorem execContextRestart_inOrder {s t : State} {i : Slot} (hs : ReportInOrder s)
    (h : execContextRestart i s = .next t) : ReportInOrder t := by
  rcases act_cases h with ⟨_, rfl⟩ | ⟨_, rfl⟩
  · exact hs
  · dsimp only
    split
    · exact hs
    · exact contextRestart_inOrder hs _ fun hq => (Bool.and_eq_true_iff.mp hq).2

/-- Without records and without pending findings the report unit is in order once ALERT follows. -/
theorem ReportInOrder.of_empty {t : State} (halert : AlertFollows t) (hq : t.report.queue = [])
    (hp : ∀ i : Slot, t.slots[i].context.findingPending = false) : ReportInOrder t := by
  refine ⟨halert, ?_, fun i hi => ?_⟩
  · rw [OneRecordPerSlot, hq]
    exact List.nodup_nil
  · rw [hp i] at hi
    cases hi

theorem execReportUnitRestart_inOrder {s t : State} (hs : ReportInOrder s)
    (h : execReportUnitRestart s = .next t) : ReportInOrder t := by
  rcases act_cases h with ⟨_, rfl⟩ | ⟨_, rfl⟩
  · exact hs
  · dsimp only
    split
    · exact hs
    · refine .of_empty hs.1 rfl fun i => ?_
      dsimp only
      rw [State.mapSlots_slot]

/-- A state with the report unit and the slots of the reset state is in order (R102, R151). -/
theorem reportInOrder_of_reset {t : State} (hr : t.report = State.reset.report) (hs : t.slots = State.reset.slots) :
    ReportInOrder t := by
  refine .of_empty ?_ ?_ fun i => ?_
  · rw [AlertFollows, hr]
    rfl
  · rw [hr]
    rfl
  · rw [hs, State.reset_slot]
    rfl

/-! ## Steps -/

/-- A step of the part keeps the order when its effect does. -/
theorem inOrder_of_act {s t : State} {f : State → State} (h : act s f = .next t) (hs : ReportInOrder s)
    (hf : ReportInOrder (f s)) : ReportInOrder t := by
  rcases act_cases h with ⟨_, rfl⟩ | ⟨_, rfl⟩
  · exact hs
  · exact hf

/-- A step of the part keeps the order when its effect leaves the report unit and the mirrors alone. -/
theorem inOrder_of_same {s t : State} {f : State → State} (h : act s f = .next t) (hs : ReportInOrder s)
    (hf : reportView (f s) = reportView s) : ReportInOrder t := inOrder_of_act h hs (hs.of_view hf)

/-- Every command keeps the report unit in order. -/
theorem exec_keeps_reportInOrder {c : Instr} {s t : State} (hs : ReportInOrder s) (h : exec c s = .next t) :
    ReportInOrder t := by
  cases c
  all_goals dsimp only [exec] at h
  case powerOn =>
    cases h
    exact (reportInOrder_of_reset (t := { State.reset with pending := s.pending }) rfl rfl).of_view
      (startOutputs_reportView _)
  case resetnAsserted =>
    cases h
    exact reportInOrder_of_reset rfl rfl
  case finding i =>
    refine inOrder_of_act h hs ?_
    split
    · exact hs
    · refine takeFinding_inOrder (hs.of_view ?_) _
      exact reportView_set rfl rfl rfl
  case noticeStart skip => exact inOrder_of_act h hs (startNotice_inOrder hs skip)
  case setReporting side => exact inOrder_of_act h hs (serveSetReporting_inOrder hs side)
  case clearDetected side block => exact inOrder_of_act h hs (serveClear_inOrder hs side block)
  case contextRestart i => exact execContextRestart_inOrder hs h
  case reportUnitRestart => exact execReportUnitRestart_inOrder hs h
  case localPeriodBoundary target => exact inOrder_of_same h hs (boundaryAt_reportView ..)
  case settleLimitReached i => exact inOrder_of_same h hs (reportView_when (contextBoundary_reportView ..))
  case soakEnd i => exact inOrder_of_same h hs (reportView_when (contextBoundary_reportView ..))
  case defectHoldReached i => exact inOrder_of_same h hs (reportView_when (contextBoundary_reportView ..))
  case intervalCountExpiry => exact inOrder_of_same h hs (reportView_when (engineBoundary_reportView ..))
  case probeTimeout index => exact inOrder_of_same h hs (reportView_when (engineBoundary_reportView ..))
  case huntCandidate side input =>
    refine inOrder_of_same h hs ?_
    split <;> rfl
  case confirmFrame side word phase =>
    refine inOrder_of_same h hs ?_
    split <;> rfl
  case lockedFrameJudged side arrival =>
    refine inOrder_of_same h hs ?_
    split
    · exact lockedFrame_reportView ..
    · rfl
  case cycleReport i =>
    refine inOrder_of_same h hs ?_
    split
    · rfl
    · exact reportView_set rfl rfl (takeReport_pending ..)
  case streamLoss i =>
    exact inOrder_of_same h hs (reportView_unless (reportView_set rfl rfl (takeStreamLoss_pending ..)))
  case transmitCycleStart => exact inOrder_of_same h hs (startCycle_reportView s)
  case transmitCycleComplete => exact inOrder_of_same h hs (reportView_vectorOf rfl rfl fun _ => rfl)
  case localFrameStart output => exact inOrder_of_same h hs (reportView_when (startLocalFrame_reportView ..))
  case echoReceipt i =>
    refine inOrder_of_same h hs ?_
    split
    · rfl
    · refine (takeHandoff_reportView ..).trans ?_
      exact reportView_set rfl rfl rfl
  case acceptedSample i =>
    exact inOrder_of_same h hs (reportView_unless (reportView_set rfl rfl (takeSample_pending ..)))
  case withdrawRequest i =>
    refine inOrder_of_same h hs (reportView_unless ((withdrawSlot_reportView ..).trans ?_))
    exact reportView_set rfl rfl rfl
  case filterResetRequest i =>
    refine inOrder_of_same h hs ?_
    split
    · rfl
    · exact reportView_set rfl rfl rfl
  case baselineWrite i =>
    refine inOrder_of_same h hs ?_
    split
    · rfl
    · exact reportView_set rfl rfl rfl
  case arbiterFrameStart output skip => exact inOrder_of_same h hs (reportView_when (startBuffered_reportView ..))
  case arbiterFrameEnd output => exact inOrder_of_same h hs (endSending_reportView ..)
  case managementFrame side =>
    refine inOrder_of_same h hs ?_
    split <;> rfl
  case setNodeIdentity side => exact inOrder_of_same h hs (serve_keeps_reportView answerSetNodeIdentity_reportView ..)
  case readStatus side block => exact inOrder_of_same h hs (serveStatus_reportView ..)
  case openWindow side => exact inOrder_of_same h hs (serve_keeps_reportView answerOpenWindow_reportView ..)
  case closeWindow side => exact inOrder_of_same h hs (serve_keeps_reportView answerCloseWindow_reportView ..)
  case setSlotRoles side => exact inOrder_of_same h hs (serve_keeps_reportView answerSetSlotRoles_reportView ..)
  case loadMapEntry side => exact inOrder_of_same h hs (serve_keeps_reportView answerLoadMapEntry_reportView ..)
  case clearMapEntry side => exact inOrder_of_same h hs (serve_keeps_reportView answerClearMapEntry_reportView ..)
  case linkRoute side => exact inOrder_of_same h hs (serve_keeps_reportView answerLinkRoute_reportView ..)
  case setProfile side => exact inOrder_of_same h hs (serve_keeps_reportView answerSetProfile_reportView ..)
  case setProbing side => exact inOrder_of_same h hs (serve_keeps_reportView (fun _ _ => rfl) ..)
  case reverify side => exact inOrder_of_same h hs (serve_keeps_reportView answerReverify_reportView ..)
  case queryTrail side => exact inOrder_of_same h hs (serve_keeps_reportView answerQueryTrail_reportView ..)
  case queryTag side => exact inOrder_of_same h hs (serve_keeps_reportView answerQueryTag_reportView ..)
  case queryRoute side => exact inOrder_of_same h hs (serve_keeps_reportView answerQueryRoute_reportView ..)
  case restart side => exact inOrder_of_same h hs (serve_keeps_reportView (fun _ _ => rfl) ..)
  case restartTakesEffect moment => exact inOrder_of_same h hs (takeEffect_reportView ..)
  case refclkTick => exact inOrder_of_same h hs rfl
  case tagReceiverRestart =>
    exact inOrder_of_same h hs (reportView_unless (reportView_vectorOf rfl rfl fun _ => rfl))
  case lineTransmitterRestart =>
    exact inOrder_of_same h hs (reportView_unless (reportView_vectorOf rfl rfl fun _ => rfl))
  case probeEngineRestart =>
    exact inOrder_of_same h hs (reportView_unless (reportView_vectorOf rfl rfl fun _ => rfl))

/-- Settles O56: a step runs the command at the front of the queue, and every command keeps the order. -/
theorem everyStepKeepsTheReportUnitInOrder : Obligations.EveryStepKeepsTheReportUnitInOrder := by
  intro s t halert hone hpending h
  unfold step at h
  split at h
  · cases h
    exact ⟨halert, hone, hpending⟩
  · next c rest _ => exact exec_keeps_reportInOrder (s := { s with pending := rest }) ⟨halert, hone, hpending⟩ h

end Sys2Proof.Machine
end

section
/-! PROOFS. The probe table and the delays: what each operation keeps in order, for the step invariant (O58). The filter,
the delays of a slot, and the table. -/

namespace Sys2Proof.Machine

/-! ## The filter -/

/-- The rounded quotient lies within one half of the exact one (R131). -/
theorem roundHalfEven_near {d : Nat} (hd : 0 < d) (n : Int) : 2 * (roundHalfEven n d * d - n).natAbs ≤ d := by
  have hdiv : n / d * d + n % d = n := Int.ediv_mul_add_emod n d
  have hlow : 0 ≤ n % d := Int.emod_nonneg n (by omega)
  have hhigh : n % d < d := Int.emod_lt_of_pos n (by omega)
  have hup : (n / d + 1) * (d : Int) = n / d * d + d := by ring
  unfold roundHalfEven
  dsimp only
  repeat' split
  all_goals omega

/-- The rounded quotient of a distance lies between 0 and the distance (R131, R132). -/
theorem roundHalfEven_between {d : Nat} (hd : 0 < d) (n : Int) :
    min 0 n ≤ roundHalfEven n d ∧ roundHalfEven n d ≤ max 0 n := by
  have hnear := roundHalfEven_near hd n
  generalize roundHalfEven n d = q at hnear ⊢
  constructor <;> by_contra h
  · have hq : q * d ≤ (min 0 n - 1) * d := Int.mul_le_mul_of_nonneg_right (by omega) (by omega)
    have hmin : min 0 n * (d : Int) ≤ min 0 n := by nlinarith [min_le_left 0 n]
    have : (min 0 n - 1) * (d : Int) = min 0 n * d - d := by ring
    omega
  · have hq : (max 0 n + 1) * d ≤ q * d := Int.mul_le_mul_of_nonneg_right (by omega) (by omega)
    have hmax : max 0 n ≤ max 0 n * (d : Int) := by nlinarith [le_max_left 0 n]
    have : (max 0 n + 1) * (d : Int) = max 0 n * d + d := by ring
    omega

/-- A filter step never passes its target (R132). -/
theorem averageAfter_between (average sample weight : Nat) :
    min average (16 * sample) ≤ averageAfter (some average) sample weight ∧
      averageAfter (some average) sample weight ≤ max average (16 * sample) := by
  have hstep := roundHalfEven_between (Nat.two_pow_pos weight) (16 * (sample : Int) - average)
  unfold averageAfter filterStep
  dsimp only
  omega

/-- A sample is accepted below 2^20 ticks alone (R127). -/
theorem sampleAccepted_iff (sample : Nat) : sampleAccepted sample = true ↔ sample < 1048576 := decide_eq_true_iff

/-! ## The delays of a slot -/

/-- The delays of one slot are in order: the average is within its range and present exactly when samples have been
counted, and the baselines, written or captured, are within the same range (R128, R132). -/
def DelaysOrdered (sl : SlotState) : Prop :=
  InAverageRange sl.probe.average ∧ (sl.probe.average.isSome = true ↔ 0 < sl.probe.sampleCount) ∧
    InAverageRange sl.map.workingBaseline ∧ InAverageRange sl.map.protectBaseline ∧
    ∀ c ∈ sl.inFlight.baselines, c.2 ≤ 16777200

theorem delaysInRange_iff (s : State) : DelaysInRange s ↔ ∀ i : Slot, DelaysOrdered s.slots[i] := Iff.rfl

theorem inAverageRange_none : InAverageRange none := nofun

theorem inAverageRange_some {a : Nat} : InAverageRange (some a) ↔ a ≤ 16777200 := by simp [InAverageRange]

section
variable {sl : SlotState}

/-- An average that a slot holds is in range. -/
theorem DelaysOrdered.average_le (h : DelaysOrdered sl) {a : Nat} (ha : sl.probe.average = some a) : a ≤ 16777200 :=
  h.1 a ha

/-- A context has no part in the delays. -/
theorem DelaysOrdered.withContext (h : DelaysOrdered sl) (c : Context) : DelaysOrdered { sl with context := c } := h

/-- A sample below 2^20 ticks is at most 16,777,200 in sixteenths, so the filter keeps the average in range (R127 to
R132). -/
theorem averageAfter_le {average : Option Nat} {sample : Nat} (ha : InAverageRange average)
    (hs : sampleAccepted sample = true) (weight : Nat) : averageAfter average sample weight ≤ 16777200 := by
  have hlimit : sample < 1048576 := (sampleAccepted_iff sample).mp hs
  cases average with
  | none => show 16 * sample ≤ _; omega
  | some a =>
    have ha : a ≤ 16777200 := inAverageRange_some.mp ha
    have hbetween := (averageAfter_between a sample weight).2
    omega

theorem satInc_pos {bound n : Nat} (h : 0 < bound) : 0 < satInc bound n := by
  unfold satInc
  split <;> omega

theorem acceptSample_delays (h : DelaysOrdered sl) (inp : CheckInputs) {sample : Nat}
    (hs : sampleAccepted sample = true) : DelaysOrdered (acceptSample inp sample sl) := by
  obtain ⟨haverage, -, hbaselines⟩ := h
  refine ⟨inAverageRange_some.mpr (averageAfter_le haverage hs _), ?_, hbaselines⟩
  exact iff_of_true rfl (satInc_pos (by decide))

/-- A filter that is emptied has no average and no samples; the baselines stay (R114, R124). -/
theorem DelaysOrdered.emptied (h : DelaysOrdered sl) {p : SlotProbe} (ha : p.average = none) (hc : p.sampleCount = 0) :
    DelaysOrdered { sl with probe := p } := by
  obtain ⟨-, -, hbaselines⟩ := h
  refine ⟨?_, iff_of_false ?_ ?_, hbaselines⟩
  · rw [ha]
    exact inAverageRange_none
  · simp [ha]
  · simp [hc]

theorem writeBaseline_delays (h : DelaysOrdered sl) (side : Protect) {value : Nat} (hv : value ≤ 16777200) :
    DelaysOrdered { sl with map := writeBaseline sl.map side value } := by
  obtain ⟨haverage, hcount, hworking, hprotect, hcaptured⟩ := h
  cases side with
  | working => exact ⟨haverage, hcount, inAverageRange_some.mpr hv, hprotect, hcaptured⟩
  | protect => exact ⟨haverage, hcount, hworking, inAverageRange_some.mpr hv, hcaptured⟩

/-- What leaves a slot's probe state and trail map alone, and adds no captured baseline, keeps its delays in order. -/
theorem OnlyContext.delays {b : SlotState} (hc : OnlyContext sl b)
    (hq : b.inFlight.baselines = sl.inFlight.baselines) (h : DelaysOrdered sl) : DelaysOrdered b := by
  unfold DelaysOrdered
  rw [hc.probe, hc.map, hq]
  exact h

/-! ## Contexts -/

variable (inp : CheckInputs) (i : Slot)

@[simp] theorem enterFailed_baselines (cause : Cause) (sl : SlotState) :
    (enterFailed inp i cause sl).inFlight.baselines = sl.inFlight.baselines := by rw [enterFailed_eq]

@[simp] theorem checkRestart_baselines (cause : Cause) (sl : SlotState) :
    (checkRestart inp i cause sl).inFlight.baselines = sl.inFlight.baselines := by
  rw [checkRestart_eq]
  split
  · exact enterFailed_baselines ..
  · rfl

@[simp] theorem enterSoaking_baselines (sl : SlotState) :
    (enterSoaking sl).inFlight.baselines = sl.inFlight.baselines := rfl

@[simp] theorem waitFor_baselines (reason : WaitReason) (sl : SlotState) :
    (waitFor reason sl).inFlight.baselines = sl.inFlight.baselines := rfl

@[simp] theorem reportInSettling_baselines (defect : Bool) (r : CycleReport) (sl : SlotState) :
    (reportInSettling inp i defect r sl).inFlight.baselines = sl.inFlight.baselines := by
  unfold reportInSettling
  repeat' split
  all_goals simp only [waitFor_baselines, enterFailed_baselines, enterSoaking_baselines]

@[simp] theorem reportGoesOnSoaking_baselines (r : CycleReport) (sl : SlotState) :
    (reportGoesOnSoaking inp i r sl).inFlight.baselines = sl.inFlight.baselines := by
  unfold reportGoesOnSoaking erroredInSoaking
  dsimp only
  repeat' split
  all_goals simp only [checkRestart_baselines, enterFailed_baselines]

@[simp] theorem reportInSoaking_baselines (defect : Bool) (r : CycleReport) (sl : SlotState) :
    (reportInSoaking inp i defect r sl).inFlight.baselines = sl.inFlight.baselines := by
  unfold reportInSoaking
  repeat' split
  all_goals simp only [checkRestart_baselines, enterFailed_baselines, reportGoesOnSoaking_baselines]

@[simp] theorem reportStaysVerified_baselines (wasDefect defect : Bool) (r : CycleReport) (sl : SlotState) :
    (reportStaysVerified wasDefect defect r sl).inFlight.baselines = sl.inFlight.baselines := by
  rw [reportStaysVerified_eq]

@[simp] theorem reportInVerified_baselines (wasDefect defect : Bool) (r : CycleReport) (sl : SlotState) :
    (reportInVerified inp i wasDefect defect r sl).inFlight.baselines = sl.inFlight.baselines := by
  unfold reportInVerified
  repeat' split
  all_goals simp only [checkRestart_baselines, enterFailed_baselines, reportStaysVerified_baselines]

theorem takeReport_baselines (r : CycleReport) (sl : SlotState) :
    (takeReport inp i r sl).inFlight.baselines = sl.inFlight.baselines := by
  unfold takeReport
  dsimp only
  split
  case h_1 => exact reportInSettling_baselines ..
  case h_2 => exact reportInSoaking_baselines ..
  case h_3 => exact reportInVerified_baselines ..
  all_goals rfl

theorem takeStreamLoss_baselines (sl : SlotState) :
    (takeStreamLoss inp i sl).inFlight.baselines = sl.inFlight.baselines := by
  unfold takeStreamLoss
  dsimp only
  split
  case h_2 => exact checkRestart_baselines ..
  all_goals rfl

theorem takeReport_delays (h : DelaysOrdered sl) (r : CycleReport) : DelaysOrdered (takeReport inp i r sl) :=
  (takeReport_only inp i r sl).delays (takeReport_baselines inp i r sl) h

theorem takeStreamLoss_delays (h : DelaysOrdered sl) : DelaysOrdered (takeStreamLoss inp i sl) :=
  (takeStreamLoss_only inp i sl).delays (takeStreamLoss_baselines inp i sl) h

theorem enterFailed_delays (h : DelaysOrdered sl) (cause : Cause) : DelaysOrdered (enterFailed inp i cause sl) :=
  (enterFailed_only inp i cause sl).delays (enterFailed_baselines inp i cause sl) h

/-- The decision at soak end writes at most a baseline, with the average as its value (R51, R88). -/
theorem decideSoakEnd_delays (h : DelaysOrdered sl) : DelaysOrdered (decideSoakEnd inp i sl) := by
  unfold decideSoakEnd
  dsimp only
  split
  · exact h
  · split
    · exact enterFailed_delays inp i h _
    · split
      · next ha _ => exact writeBaseline_delays h _ (h.average_le ha)
      · split
        · exact enterFailed_delays inp i h _
        · exact h
      · exact h

theorem takeBoundary_delays (h : DelaysOrdered sl) : DelaysOrdered (takeBoundary inp i sl) := by
  cases hc : sl.context.state with
  | settling =>
    rw [takeBoundary_settling hc]
    split
    · exact enterFailed_delays inp i (h.withContext _) _
    · exact h
  | soaking =>
    rw [takeBoundary_soaking hc]
    split
    · exact decideSoakEnd_delays inp i (h.withContext _)
    · exact h
  | verified =>
    cases hd : sl.context.defectNow with
    | false =>
      rw [takeBoundary_verified_clear hc hd]
      exact h
    | true =>
      rw [takeBoundary_verified hc hd]
      split
      · exact enterFailed_delays inp i (h.withContext _) _
      · exact h
  | idle => rwa [takeBoundary_idle (.inl hc)]
  | window => rwa [takeBoundary_idle (.inr (.inl hc))]
  | failed => rwa [takeBoundary_idle (.inr (.inr hc))]

/-- A sample event reads the average as it stands, or none (R92, R101). -/
theorem average_of_sampleAverage {a : Nat} (h : sampleAverage sl = some a) : sl.probe.average = some a := by
  unfold sampleAverage at h
  split at h
  · cases h
  · exact h

/-- An accepted sample writes at most a baseline, with the average as its value (R51, R92). -/
theorem takeSample_delays (h : DelaysOrdered sl) : DelaysOrdered (takeSample inp i sl) := by
  unfold takeSample
  split
  case h_1 =>
    split
    · exact h
    · rw [strikeTest_eq]
      split
      · exact enterFailed_delays inp i (h.withContext _) _
      · exact h
    · next ha _ =>
      unfold learnBaseline
      split
      · exact writeBaseline_delays h _ (h.average_le (average_of_sampleAverage ha))
      · exact h
  all_goals exact h

/-- OPEN WINDOW captures at most the average (R77). -/
theorem openSlot_delays (h : DelaysOrdered sl) : DelaysOrdered (openSlot inp sl) := by
  unfold openSlot
  split
  case h_2 =>
    obtain ⟨haverage, hcount, hworking, hprotect, hcaptured⟩ := h
    refine ⟨haverage, hcount, hworking, hprotect, fun c hc => ?_⟩
    rcases List.mem_append.mp hc with hc | hc
    · exact hcaptured c hc
    · rw [captureBaseline] at hc
      split at hc
      · next a ha =>
        split at hc
        · obtain rfl := List.mem_singleton.mp hc
          exact haverage a ha
        · cases hc
      · cases hc
  all_goals exact h

theorem closeSlot_delays (h : DelaysOrdered sl) (epoch : Half) : DelaysOrdered (closeSlot epoch sl) := by
  unfold closeSlot
  dsimp only
  repeat' split
  all_goals exact h

theorem restartSlot_delays (h : DelaysOrdered sl) (stillQueued : Bool) :
    DelaysOrdered (restartSlot stillQueued sl) := by
  unfold restartSlot
  dsimp only
  split <;> exact h

/-- A new entry keeps the baselines or clears them (R52). -/
theorem loadEntry_delays (h : DelaysOrdered sl) (e : MapEntry) (keep : Bool) :
    DelaysOrdered { sl with map := loadEntry e keep sl.map } := by
  obtain ⟨haverage, hcount, hworking, hprotect, hcaptured⟩ := h
  cases keep with
  | true => exact ⟨haverage, hcount, hworking, hprotect, hcaptured⟩
  | false => exact ⟨haverage, hcount, inAverageRange_none, inAverageRange_none, hcaptured⟩

theorem clearEntry_delays (h : DelaysOrdered sl) : DelaysOrdered { sl with map := clearEntry sl.map } := by
  obtain ⟨haverage, hcount, -, -, hcaptured⟩ := h
  exact ⟨haverage, hcount, inAverageRange_none, inAverageRange_none, hcaptured⟩

end

/-! ## The probe table -/

/-- The probe table holds at most one entry per slot (R104). -/
def OnePerSlot (t : Vector (Option ProbeEntry) 8) : Prop := ((entriesOf t).map ProbeEntry.slot).Nodup

/-- Two places of the table do not hold entries of one slot. -/
theorem onePerSlot_iff (t : Vector (Option ProbeEntry) 8) :
    OnePerSlot t ↔ ∀ (k k' : Fin 8) (e e' : ProbeEntry),
      t[k] = some e → t[k'] = some e' → e.slot = e'.slot → k = k' := by
  rw [OnePerSlot, entriesOf_eq, List.map_filterMap]
  constructor
  · intro h k k' e e' hk hk' hslot
    have hpair := List.pairwise_iff_getElem.mp (List.pairwise_filterMap.mp h)
    have apart {a b : Fin 8} {x y : ProbeEntry} (hab : a < b) (hx : t[a] = some x) (hy : t[b] = some y) :
        x.slot ≠ y.slot := by
      have hx' : t[a.val] = some x := hx
      have hy' : t[b.val] = some y := hy
      simpa [hx', hy'] using hpair a b (by simp) (by simp) hab
    rcases lt_trichotomy k k' with hlt | heq | hgt
    · exact absurd hslot (apart hlt hk hk')
    · exact heq
    · exact absurd hslot.symm (apart hgt hk' hk)
  · intro h
    refine (List.nodup_finRange 8).filterMap fun k k' i hi hi' => ?_
    obtain ⟨e, hk, rfl⟩ := Option.map_eq_some_iff.mp hi
    obtain ⟨e', hk', hslot⟩ := Option.map_eq_some_iff.mp hi'
    exact h k k' e e' hk hk' hslot.symm

section
variable {t : Vector (Option ProbeEntry) 8}

theorem table_set_get (t : Vector (Option ProbeEntry) 8) (k k' : Fin 8) (e : Option ProbeEntry) :
    (t.set k e)[k'] = if k' = k then e else t[k'] := by
  simp only [Fin.getElem_fin, Vector.getElem_set, Fin.ext_iff, eq_comm]

/-- An operation that frees entries, or changes no entry's slot, keeps one entry per slot. -/
theorem OnePerSlot.mapTable (h : OnePerSlot t) {f : ProbeEntry → Option ProbeEntry}
    (hf : ∀ e e', f e = some e' → e'.slot = e.slot) : OnePerSlot (mapTable t f) := by
  rw [onePerSlot_iff] at h ⊢
  intro k k' e e' hk hk' hslot
  rw [mapTable_get] at hk hk'
  obtain ⟨x, hx, hxe⟩ := Option.bind_eq_some_iff.mp hk
  obtain ⟨x', hx', hxe'⟩ := Option.bind_eq_some_iff.mp hk'
  exact h k k' x x' hx hx' ((hf x e hxe).symm.trans (hslot.trans (hf x' e' hxe')))

/-- An entry for a slot that has none keeps one entry per slot. -/
theorem OnePerSlot.set (h : OnePerSlot t) (k : Fin 8) {e : ProbeEntry}
    (hnew : ∀ (k' : Fin 8) (x : ProbeEntry), t[k'] = some x → x.slot ≠ e.slot) : OnePerSlot (t.set k (some e)) := by
  rw [onePerSlot_iff] at h ⊢
  intro a b x y hx hy hslot
  rw [table_set_get] at hx hy
  split at hx <;> split at hy
  · next ha hb => exact ha.trans hb.symm
  · cases hx
    exact absurd hslot.symm (hnew b y hy)
  · cases hy
    exact absurd hslot (hnew a x hx)
  · exact h a b x y hx hy hslot

theorem OnePerSlot.freeEntry (h : OnePerSlot t) (i : Slot) : OnePerSlot (freeEntry t i) := by
  refine h.mapTable fun e e' he => ?_
  split at he
  · cases he
  · cases he
    rfl

theorem launchEntries_onePerSlot {s : State} (h : OnePerSlot s.probe.table) (start : Stamp) :
    OnePerSlot (launchEntries s start) := by
  refine h.mapTable fun e e' he => ?_
  split at he <;> cases he <;> rfl

theorem countdown_onePerSlot {s : State} (h : OnePerSlot s.probe.table) : OnePerSlot (countdown s).probe.table := by
  refine h.mapTable fun e e' he => ?_
  split at he
  · cases he
  · cases he
    rfl

/-- The slot that a rotation step arms has no entry (R107, R108). -/
theorem slotToArm_unprobed {s : State} {i : Slot} (h : slotToArm s = some i) (k : Fin 8) (e : ProbeEntry)
    (hk : s.probe.table[k] = some e) : e.slot ≠ i := by
  have hwants : ∃ state, Wants s state i := by
    unfold slotToArm at h
    split at h
    · next hf =>
      cases h
      exact ⟨_, (wanting_iff ..).mp ((searchOrder_find ..).mp hf).1⟩
    · exact ⟨_, (wanting_iff ..).mp ((searchOrder_find ..).mp h).1⟩
  obtain ⟨_, -, -, -, hfree⟩ := hwants
  exact hfree k e hk

end

end Sys2Proof.Machine
end

section
/-! PROOFS. What each command does to the probe engine's order, and the step invariant (O58). -/

namespace Sys2Proof.Machine

/-! ## What keeps the probe engine in order -/

/-- A change keeps one probe table entry per slot, and the delays of every slot in order. -/
def ProbesKept (s t : State) : Prop :=
  (OnePerSlot s.probe.table → OnePerSlot t.probe.table) ∧
    ∀ i : Slot, DelaysOrdered s.slots[i] → DelaysOrdered t.slots[i]

theorem ProbesKept.refl (s : State) : ProbesKept s s := ⟨id, fun _ => id⟩

theorem ProbesKept.trans {s t u : State} (h : ProbesKept s t) (g : ProbesKept t u) : ProbesKept s u :=
  ⟨g.1 ∘ h.1, fun i => g.2 i ∘ h.2 i⟩

theorem ProbesKept.congr {s t u : State} (h : ProbesKept s t) (hp : u.probe.table = t.probe.table)
    (hs : u.slots = t.slots) : ProbesKept s u :=
  ⟨fun ht => by rw [hp]; exact h.1 ht, fun i => by rw [hs]; exact h.2 i⟩

/-- The order lies in the probe table and the slots alone. -/
theorem ProbesKept.congr_left {s u t : State} (h : ProbesKept u t) (hp : u.probe.table = s.probe.table)
    (hs : u.slots = s.slots) : ProbesKept s t :=
  ⟨fun ht => h.1 (by rwa [hp]), fun i hi => h.2 i (by rwa [hs])⟩

/-- One slot is replaced by one that keeps its delays in order. -/
theorem ProbesKept.of_set {s t : State} {i : Slot} {x : SlotState}
    (hp : OnePerSlot s.probe.table → OnePerSlot t.probe.table) (hs : t.slots = s.slots.set i x)
    (h : DelaysOrdered s.slots[i] → DelaysOrdered x) : ProbesKept s t := by
  refine ⟨hp, fun j => ?_⟩
  rw [hs, show (s.slots.set i x)[j] = _ from State.modSlot_slot s i j fun _ => x]
  split
  · next hj => rw [hj]; exact h
  · exact id

/-- Every slot is replaced by one that keeps its delays in order. -/
theorem ProbesKept.of_vectorOf {s t : State} {g : Slot → SlotState}
    (hp : OnePerSlot s.probe.table → OnePerSlot t.probe.table) (hs : t.slots = vectorOf g)
    (h : ∀ i : Slot, DelaysOrdered s.slots[i] → DelaysOrdered (g i)) : ProbesKept s t :=
  ⟨hp, fun i => by rw [hs, vectorOf_get]; exact h i⟩

theorem ProbesKept.when {s t : State} {p : Prop} [Decidable p] (h : ProbesKept s t) :
    ProbesKept s (if p then t else s) := by
  split
  · exact h
  · exact .refl s

theorem ProbesKept.unless {s t : State} {p : Prop} [Decidable p] (h : ProbesKept s t) :
    ProbesKept s (if p then s else t) := by
  split
  · exact .refl s
  · exact h

/-! ## The probe engine -/

theorem rotationStep_probesKept (s : State) : ProbesKept s (rotationStep s) := by
  unfold rotationStep
  split
  · exact .refl s
  · next k _ =>
    split
    · exact .refl s
    · next i hi => exact .of_set (fun ht => ht.set k (slotToArm_unprobed hi)) rfl id

theorem countdown_probesKept (s : State) : ProbesKept s (countdown s) := by
  refine .of_vectorOf countdown_onePerSlot rfl fun i hi => ?_
  dsimp only
  unfold fieldAfterTimeout
  repeat' split
  all_goals exact hi

theorem probeBoundary_probesKept (s : State) : ProbesKept s (probeBoundary s) := by
  have counted (u : State) : ProbesKept u (countInterval u) := by
    unfold countInterval
    split
    · exact (rotationStep_probesKept _).congr_left rfl rfl
    · exact .refl u
  exact ((countdown_probesKept _).trans (counted _)).congr_left rfl rfl

theorem engineBoundary_probesKept (s : State) : ProbesKept s (engineBoundary s) := .when (probeBoundary_probesKept s)

/-- An accepted echo frees the entry and enters the filter; else the filter is not touched (R115, R119, R127). -/
theorem matchedEcho_probesKept (s : State) (i : Slot) (launch : Stamp) (h : EchoHandoff) :
    ProbesKept s (matchedEcho s i launch h) := by
  have freed : OnePerSlot s.probe.table → OnePerSlot (freeEntry s.probe.table i) := fun ht => ht.freeEntry i
  unfold matchedEcho
  dsimp only
  split
  · exact ⟨freed, fun _ => id⟩
  · split
    · next hs => exact .of_set freed rfl fun hd => acceptSample_delays hd _ hs
    · exact ⟨freed, fun _ => id⟩

theorem takeEcho_probesKept (s : State) (i : Slot) (h : EchoHandoff) : ProbesKept s (takeEcho s i h) := by
  have numbered (u : State) :
      ProbesKept u (u.modSlot i fun sl => { sl with probe := { sl.probe with lastEcho := h.echoNumber } }) :=
    .of_set id rfl id
  unfold takeEcho
  dsimp only
  split
  · exact .refl s
  · split
    · exact (matchedEcho_probesKept ..).trans (numbered _)
    · refine ProbesKept.trans (t := unmatchedEcho s i h) ?_ (numbered _)
      exact .unless (.refl s)

theorem respond_delays {sl : SlotState} (hd : DelaysOrdered sl) (h : EchoHandoff) :
    DelaysOrdered { sl with probe := respond h sl.probe } := by
  unfold respond
  split <;> exact hd

theorem takeHandoff_probesKept (s : State) (i : Slot) (h : EchoHandoff) : ProbesKept s (takeHandoff s i h) :=
  .when ((takeEcho_probesKept s i h).trans (.of_set id rfl fun hd => respond_delays hd h))

theorem withdrawSlot_probesKept (s : State) (i : Slot) : ProbesKept s (withdrawSlot s i) :=
  .of_set (fun ht => ht.freeEntry i) rfl id

/-! ## Local period boundaries -/

theorem contextBoundary_probesKept (s : State) (i : Slot) : ProbesKept s (contextBoundary s i) :=
  .when (.of_set id rfl fun hd => takeBoundary_delays (sl := boundaryTaken s.slots[i]) _ i hd)

theorem boundaryAt_probesKept (target : BoundaryAt) (s : State) : ProbesKept s (boundaryAt target s) := by
  cases target with
  | timebase => exact .unless (.of_vectorOf id rfl fun _ => id)
  | context i => exact contextBoundary_probesKept s i
  | probeEngine => exact engineBoundary_probesKept s

/-! ## Outputs and frames -/

theorem startLineFrame_probesKept (s : State) (timing : Timing) (sent : Nat) (f : OutFrame) :
    ProbesKept s (startLineFrame s timing sent f) := by
  unfold startLineFrame
  dsimp only
  split
  · exact .refl s
  · split
    · exact .refl s
    · exact .of_vectorOf id rfl fun _ => id

theorem startLocalFrame_probesKept (s : State) (output : Side) : ProbesKept s (startLocalFrame s output) := by
  cases output with
  | line => exact startLineFrame_probesKept ..
  | drop => exact .refl s

/-- A transmit cycle start launches entries and touches no filter (R110). -/
theorem latchCycle_probesKept (s : State) : ProbesKept s (latchCycle s) := by
  refine ⟨fun ht => launchEntries_onePerSlot ht _, fun i hi => ?_⟩
  rw [latchCycle_slot, probeAtCycleStart]
  split <;> exact hi

theorem startCycle_probesKept (s : State) : ProbesKept s (startCycle s) := by
  unfold startCycle
  split
  · exact .refl s
  · split
    · exact (latchCycle_probesKept s).trans (.of_vectorOf id rfl fun _ => id)
    · exact .refl s

theorem startOutputs_probesKept (s : State) : ProbesKept s (startOutputs s) :=
  ((startLocalFrame_probesKept s .drop).trans (startLocalFrame_probesKept _ .line)).trans (startCycle_probesKept _)

theorem cutCycle_probesKept (s : State) (sent : Nat) : ProbesKept s (cutCycle s sent) :=
  .of_vectorOf id rfl fun _ => id

theorem leaveFollow_probesKept (s : State) (output : Side) (sent : Nat) :
    ProbesKept s (leaveFollow s output sent) := by
  rw [leaveFollow_rest]
  exact .refl s

theorem deliverSlot_delays {sl : SlotState} (h : DelaysOrdered sl) (slipped : Bool) (p : Phase) (start : Option Stamp)
    (b : SlotBytes) : DelaysOrdered (deliverSlot slipped p start b sl) := by
  unfold deliverSlot
  dsimp only
  split <;> exact h

theorem lineFrame_probesKept (s : State) (f : Frame) (sent : Nat) : ProbesKept s (lineFrame s f sent) := by
  unfold lineFrame
  dsimp only
  split
  case h_4 =>
    refine ProbesKept.trans ?_ (leaveFollow_probesKept ..)
    exact .of_vectorOf id rfl fun _ => id
  all_goals exact .of_vectorOf id rfl fun _ hd => deliverSlot_delays hd ..

theorem dropFrame_probesKept (s : State) (f : Frame) (sent : Nat) : ProbesKept s (dropFrame s f sent) := by
  have delivered (u : State) (p : Phase) : ProbesKept u (deliverDrop u p f sent) := by
    unfold deliverDrop
    dsimp only
    refine ProbesKept.trans ?_ (startLineFrame_probesKept ..)
    split
    · exact .refl u
    · exact (cutCycle_probesKept ..).congr_left rfl rfl
  unfold dropFrame
  dsimp only
  split
  case h_4 =>
    unfold loseDrop
    dsimp only
    split
    · exact ((cutCycle_probesKept ..).trans (leaveFollow_probesKept ..)).congr_left rfl rfl
    · exact .refl s
  all_goals exact (delivered ..).congr_left rfl rfl

theorem lockedFrame_probesKept (s : State) (side : Side) (f : Frame) (sent : Nat) :
    ProbesKept s (lockedFrame s side f sent) := by
  cases side with
  | line => exact lineFrame_probesKept ..
  | drop => exact dropFrame_probesKept ..

/-! ## The report unit, the management channel and the restart -/

theorem takeFinding_probesKept (s : State) (f : Finding) : ProbesKept s (takeFinding s f) := by
  unfold takeFinding setPending
  dsimp only
  split
  · exact .of_set id rfl id
  · exact .refl s

theorem startNotice_probesKept (s : State) (skip : Nat) : ProbesKept s (startNotice s skip) := by
  unfold startNotice
  split
  · exact .refl s
  · split
    · exact .of_set id rfl id
    · exact .refl s

theorem startBuffered_probesKept (s : State) (output : Side) (skip : Nat) :
    ProbesKept s (startBuffered s output skip) := by
  unfold startBuffered
  split <;> exact .refl s

theorem endSending_probesKept (s : State) (output : Side) : ProbesKept s (endSending s output) := by
  unfold endSending
  dsimp only
  repeat' split
  all_goals exact .refl s

theorem restartNow_probesKept (s : State) (side : Side) (sent : Nat) : ProbesKept s (restartNow s side sent) :=
  .of_vectorOf id rfl fun _ => id

theorem takeEffect_probesKept (s : State) (side : Side) (sent : Nat) : ProbesKept s (takeEffect s side sent) := by
  unfold takeEffect
  split
  · exact restartNow_probesKept ..
  · split
    · exact .refl s
    · exact .when (restartNow_probesKept (placeLast s side _) side sent)

/-! ## Requests -/

theorem serve_probesKept {answer : State → List Byte → Answer} (h : ∀ s p, ProbesKept s (answer s p).state) (s : State)
    (side : Side) (c : Command) : ProbesKept s (serve s side c answer) := by
  cases hf : findRequest s side c with
  | none => rw [serve_none hf]; exact .refl s
  | some r => rw [serve_state hf]; exact (h s r.payload).congr rfl rfl

section
variable (s : State) (p : List Byte)

theorem answerSetNodeIdentity_probesKept : ProbesKept s (answerSetNodeIdentity s p).state := by
  unfold answerSetNodeIdentity
  repeat' split
  all_goals exact .refl s

/-- A window request keeps the delays in order when its effect on a slot does. -/
theorem answerWindow_probesKept {test : SlotState → Bool} {f : SlotState → SlotState}
    (h : ∀ sl, DelaysOrdered sl → DelaysOrdered (f sl)) : ProbesKept s (answerWindow s p test f).state := by
  unfold answerWindow
  dsimp only
  split
  · exact .refl s
  · refine .of_vectorOf id rfl fun i hi => ?_
    dsimp only
    split
    · exact h _ hi
    · exact hi

theorem answerOpenWindow_probesKept : ProbesKept s (answerOpenWindow s p).state := by
  rw [answerOpenWindow_eq]
  exact answerWindow_probesKept s p fun _ h => openSlot_delays _ h

theorem answerCloseWindow_probesKept : ProbesKept s (answerCloseWindow s p).state := by
  rw [answerCloseWindow_eq]
  exact answerWindow_probesKept s p fun _ h => closeSlot_delays h _

theorem answerSetSlotRoles_probesKept : ProbesKept s (answerSetSlotRoles s p).state := by
  unfold answerSetSlotRoles
  repeat' split
  case isFalse => exact .of_set id rfl id
  all_goals exact .refl s

theorem answerLoadMapEntry_probesKept : ProbesKept s (answerLoadMapEntry s p).state := by
  unfold answerLoadMapEntry
  repeat' split
  case isFalse => exact .of_set id rfl fun h => loadEntry_delays h ..
  all_goals exact .refl s

theorem answerClearMapEntry_probesKept : ProbesKept s (answerClearMapEntry s p).state := by
  unfold answerClearMapEntry
  repeat' split
  case isFalse => exact .of_set id rfl clearEntry_delays
  all_goals exact .refl s

theorem answerLinkRoute_probesKept : ProbesKept s (answerLinkRoute s p).state := by
  unfold answerLinkRoute
  dsimp only
  repeat' split
  case isFalse => exact .of_set id rfl id
  all_goals exact .refl s

theorem answerSetProfile_probesKept : ProbesKept s (answerSetProfile s p).state := by
  unfold answerSetProfile
  split <;> exact .refl s

theorem answerSetReporting_probesKept : ProbesKept s (answerSetReporting s p).state := by
  unfold answerSetReporting
  split <;> exact .refl s

theorem answerReverify_probesKept : ProbesKept s (answerReverify s p).state := by
  unfold answerReverify
  repeat' split
  case isTrue => exact .of_set id rfl id
  all_goals exact .refl s

theorem answerQueryTrail_probesKept : ProbesKept s (answerQueryTrail s p).state := by
  unfold answerQueryTrail
  split <;> exact .refl s

theorem answerQueryTag_probesKept : ProbesKept s (answerQueryTag s p).state := by
  unfold answerQueryTag
  repeat' split
  all_goals exact .refl s

theorem answerQueryRoute_probesKept : ProbesKept s (answerQueryRoute s p).state := by
  unfold answerQueryRoute
  split <;> exact .refl s

end

theorem serveStatus_probesKept (s : State) (side : Side) (block : Block) :
    ProbesKept s (serveStatus s side block) := by
  unfold serveStatus
  dsimp only
  repeat' split
  all_goals exact .refl s

theorem serveClear_probesKept (s : State) (side : Side) (block : Block) : ProbesKept s (serveClear s side block) := by
  have items (p : List Byte) : ProbesKept s (clearItems s p block) := by cases block <;> exact .refl s
  unfold serveClear
  split
  · exact .refl s
  · next r _ =>
    have cleared : ProbesKept s (if r.todo.contains block then clearItems s r.payload block else s) := .when (items _)
    dsimp only
    split <;> exact cleared.congr rfl rfl

/-! ## Steps -/

/-- A step of the part keeps what its effect keeps. -/
theorem probesKept_of_act {s t : State} {f : State → State} (h : act s f = .next t) (hf : ProbesKept s (f s)) :
    ProbesKept s t := by
  rcases act_cases h with ⟨_, rfl⟩ | ⟨_, rfl⟩
  · exact .refl t
  · exact hf

/-- Every command other than a reset keeps the probe engine in order. -/
theorem exec_probesKept {c : Instr} {s t : State} (hp : c ≠ .powerOn) (hr : c ≠ .resetnAsserted)
    (h : exec c s = .next t) : ProbesKept s t := by
  cases c
  all_goals dsimp only [exec] at h
  case powerOn => exact absurd rfl hp
  case resetnAsserted => exact absurd rfl hr
  case localPeriodBoundary target => exact probesKept_of_act h (boundaryAt_probesKept ..)
  case settleLimitReached i => exact probesKept_of_act h (.when (contextBoundary_probesKept ..))
  case soakEnd i => exact probesKept_of_act h (.when (contextBoundary_probesKept ..))
  case defectHoldReached i => exact probesKept_of_act h (.when (contextBoundary_probesKept ..))
  case intervalCountExpiry => exact probesKept_of_act h (.when (engineBoundary_probesKept ..))
  case probeTimeout index => exact probesKept_of_act h (.when (engineBoundary_probesKept ..))
  case huntCandidate side input =>
    refine probesKept_of_act h ?_
    split <;> exact .refl s
  case confirmFrame side word phase =>
    refine probesKept_of_act h ?_
    split <;> exact .refl s
  case lockedFrameJudged side arrival =>
    refine probesKept_of_act h ?_
    split
    · exact lockedFrame_probesKept ..
    · exact .refl s
  case cycleReport i =>
    refine probesKept_of_act h ?_
    split
    · exact .refl s
    · next r rest _ =>
      exact .of_set id rfl fun hd =>
        takeReport_delays (sl := { s.slots[i] with inFlight := { s.slots[i].inFlight with reports := rest } }) _ i hd r
  case streamLoss i =>
    refine probesKept_of_act h (.unless ?_)
    exact .of_set id rfl fun hd => takeStreamLoss_delays (sl := { s.slots[i] with
      inFlight := { s.slots[i].inFlight with losses := s.slots[i].inFlight.losses - 1 } }) _ i hd
  case transmitCycleStart => exact probesKept_of_act h (startCycle_probesKept s)
  case transmitCycleComplete => exact probesKept_of_act h (.of_vectorOf id rfl fun _ => id)
  case localFrameStart output => exact probesKept_of_act h (.when (startLocalFrame_probesKept ..))
  case echoReceipt i =>
    refine probesKept_of_act h ?_
    split
    · exact .refl s
    · refine ProbesKept.trans ?_ (takeHandoff_probesKept ..)
      exact .of_set id rfl id
  case acceptedSample i =>
    refine probesKept_of_act h (.unless ?_)
    exact .of_set id rfl fun hd => takeSample_delays (sl := { s.slots[i] with
      inFlight := { s.slots[i].inFlight with samples := s.slots[i].inFlight.samples - 1 } }) _ i hd
  case withdrawRequest i =>
    refine probesKept_of_act h (.unless (ProbesKept.trans ?_ (withdrawSlot_probesKept ..)))
    exact .of_set id rfl id
  case filterResetRequest i =>
    refine probesKept_of_act h ?_
    split
    · exact .refl s
    · exact .of_set id rfl fun hd => hd.emptied rfl rfl
  case baselineWrite i =>
    refine probesKept_of_act h ?_
    split
    · exact .refl s
    · next side value rest hq =>
      refine .of_set id rfl fun hd => ?_
      obtain ⟨haverage, hcount, hworking, hprotect, hcaptured⟩ := hd
      rw [hq] at hcaptured
      obtain ⟨hvalue, hrest⟩ := List.forall_mem_cons.mp hcaptured
      exact writeBaseline_delays (sl := { s.slots[i] with inFlight := { s.slots[i].inFlight with baselines := rest } })
        ⟨haverage, hcount, hworking, hprotect, hrest⟩ side hvalue
  case finding i =>
    refine probesKept_of_act h ?_
    split
    · exact .refl s
    · refine ProbesKept.trans ?_ (takeFinding_probesKept ..)
      exact .of_set id rfl id
  case noticeStart skip => exact probesKept_of_act h (startNotice_probesKept ..)
  case arbiterFrameStart output skip => exact probesKept_of_act h (.when (startBuffered_probesKept ..))
  case arbiterFrameEnd output => exact probesKept_of_act h (endSending_probesKept ..)
  case managementFrame side =>
    refine probesKept_of_act h ?_
    split <;> exact .refl s
  case setNodeIdentity side => exact probesKept_of_act h (serve_probesKept answerSetNodeIdentity_probesKept ..)
  case readStatus side block => exact probesKept_of_act h (serveStatus_probesKept ..)
  case openWindow side => exact probesKept_of_act h (serve_probesKept answerOpenWindow_probesKept ..)
  case closeWindow side => exact probesKept_of_act h (serve_probesKept answerCloseWindow_probesKept ..)
  case setSlotRoles side => exact probesKept_of_act h (serve_probesKept answerSetSlotRoles_probesKept ..)
  case loadMapEntry side => exact probesKept_of_act h (serve_probesKept answerLoadMapEntry_probesKept ..)
  case clearMapEntry side => exact probesKept_of_act h (serve_probesKept answerClearMapEntry_probesKept ..)
  case linkRoute side => exact probesKept_of_act h (serve_probesKept answerLinkRoute_probesKept ..)
  case setProfile side => exact probesKept_of_act h (serve_probesKept answerSetProfile_probesKept ..)
  case setProbing side => exact probesKept_of_act h (serve_probesKept (fun _ _ => .refl _) ..)
  case setReporting side => exact probesKept_of_act h (serve_probesKept answerSetReporting_probesKept ..)
  case reverify side => exact probesKept_of_act h (serve_probesKept answerReverify_probesKept ..)
  case queryTrail side => exact probesKept_of_act h (serve_probesKept answerQueryTrail_probesKept ..)
  case queryTag side => exact probesKept_of_act h (serve_probesKept answerQueryTag_probesKept ..)
  case queryRoute side => exact probesKept_of_act h (serve_probesKept answerQueryRoute_probesKept ..)
  case clearDetected side block => exact probesKept_of_act h (serveClear_probesKept ..)
  case restart side => exact probesKept_of_act h (serve_probesKept (fun _ _ => .refl _) ..)
  case restartTakesEffect moment => exact probesKept_of_act h (takeEffect_probesKept ..)
  case contextRestart i =>
    refine probesKept_of_act h (.unless ?_)
    exact .of_set id rfl fun hd => restartSlot_delays (sl := { s.slots[i] with
      inFlight := { s.slots[i].inFlight with restarts := s.slots[i].inFlight.restarts - 1 } }) hd _
  case refclkTick => exact probesKept_of_act h (.refl s)
  case tagReceiverRestart => exact probesKept_of_act h (.unless (.of_vectorOf id rfl fun _ => id))
  case lineTransmitterRestart => exact probesKept_of_act h (.unless (.of_vectorOf id rfl fun _ => id))
  case probeEngineRestart =>
    refine probesKept_of_act h (.unless ?_)
    exact .of_vectorOf (fun _ => reset_oneEntryPerSlot) rfl fun _ hd => hd.emptied rfl rfl
  case reportUnitRestart => exact probesKept_of_act h (.unless (.of_vectorOf id rfl fun _ => id))

/-- A reset keeps what stands in the reset state (R57, R124). -/
theorem exec_reset_probesKept {c : Instr} {s t : State} (hc : c = .powerOn ∨ c = .resetnAsserted)
    (h : exec c s = .next t) : ProbesKept State.reset t := by
  have emptied (held : Bool) : ProbesKept State.reset { State.reset with resetHeld := held, pending := s.pending } :=
    (ProbesKept.refl State.reset).congr rfl rfl
  rcases hc with rfl | rfl
  · cases h
    exact (emptied false).trans (startOutputs_probesKept _)
  · cases h
    exact emptied true

theorem ProbesKept.inOrder {s t : State} (h : ProbesKept s t) (hd : DelaysInRange s) (ho : OneEntryPerSlot s) :
    DelaysInRange t ∧ OneEntryPerSlot t :=
  ⟨(delaysInRange_iff t).mpr fun i => h.2 i ((delaysInRange_iff s).mp hd i), h.1 ho⟩

/-- Settles O58: a step runs the command at the front of the queue; a reset puts the probe engine at its reset value,
and every other command keeps it in order. -/
theorem everyStepKeepsTheProbeEngineInOrder : Obligations.EveryStepKeepsTheProbeEngineInOrder := by
  intro s t hd ho h
  unfold step at h
  split at h
  · cases h
    exact ⟨hd, ho⟩
  · next c rest _ =>
    by_cases hreset : c = .powerOn ∨ c = .resetnAsserted
    · exact (exec_reset_probesKept hreset h).inOrder reset_delaysInRange reset_oneEntryPerSlot
    · obtain ⟨hp, hr⟩ := not_or.mp hreset
      exact (exec_probesKept hp hr h).inOrder (s := { s with pending := rest }) hd ho

end Sys2Proof.Machine
end

section
/-! PROOFS. Local period boundaries at the probe engine: the countdown below the interval (O10) and the rotation step at
the interval (O11). -/

namespace Sys2Proof.Machine

/-! ## The boundary and its rows -/

/-- The part once the probe engine has taken a boundary and counted its entries down (R109, R112). -/
def boundaryCounted (s : State) : State :=
  countdown { s with probe := { s.probe with boundariesDue := s.probe.boundariesDue - 1 } }

section
variable {s : State}

theorem engineBoundary_eq (hb : 0 < s.probe.boundariesDue) : engineBoundary s = countInterval (boundaryCounted s) :=
  if_pos (decide_eq_true hb)

theorem execLocalPeriodBoundary_probeEngine (hr : s.resetHeld = false) (hb : 0 < s.probe.boundariesDue) :
    exec (.localPeriodBoundary .probeEngine) s = .next (countInterval (boundaryCounted s)) := by
  rw [← engineBoundary_eq hb]
  exact act_running hr _

theorem timeoutAhead_iff (index : Fin 8) :
    timeoutAhead s index = true ↔ ∃ e, s.probe.table[index] = some e ∧ e.remaining ≤ 1 := by
  unfold timeoutAhead
  cases he : s.probe.table[index] with
  | none => simp
  | some e => simp

/-- PROBE_TIMEOUT is the boundary at which an entry reaches 0 (log entry 2). -/
theorem execProbeTimeout_eq (hr : s.resetHeld = false) (hb : 0 < s.probe.boundariesDue) {index : Fin 8}
    (h : ∃ e, s.probe.table[index] = some e ∧ e.remaining ≤ 1) :
    exec (.probeTimeout index) s = .next (countInterval (boundaryCounted s)) := by
  show execProbeTimeout index s = _
  rw [execProbeTimeout, act_running hr, if_pos ((timeoutAhead_iff index).mpr h), engineBoundary_eq hb]

theorem intervalAhead_iff : intervalAhead s = true ↔ s.probe.interval ≤ s.probe.intervalCount + 1 := decide_eq_true_iff

/-- INTERVAL_COUNT_EXPIRY is the boundary that brings the count to the interval (log entry 2). -/
theorem execIntervalCountExpiry_eq (hr : s.resetHeld = false) (hb : 0 < s.probe.boundariesDue)
    (h : s.probe.interval ≤ s.probe.intervalCount + 1) :
    exec .intervalCountExpiry s = .next (countInterval (boundaryCounted s)) := by
  show execIntervalCountExpiry s = _
  rw [execIntervalCountExpiry, act_running hr, if_pos (intervalAhead_iff.mpr h), engineBoundary_eq hb]

theorem countInterval_below (h : s.probe.intervalCount + 1 < s.probe.interval) :
    countInterval s = { s with probe := { s.probe with intervalCount := s.probe.intervalCount + 1 } } := by
  rw [countInterval, if_neg (mt intervalAhead_iff.mp (Nat.not_le.mpr h))]

theorem countInterval_at (h : s.probe.interval ≤ s.probe.intervalCount + 1) :
    countInterval s = rotationStep { s with probe := { s.probe with intervalCount := 0 } } :=
  if_pos (intervalAhead_iff.mpr h)

end

/-- Settles O10: the countdown leaves the interval count, which then stays below the interval. -/
theorem probeBoundaryCountsDown : Obligations.ProbeBoundaryCountsDown := by
  intro s hr hb hlt
  have hcount := countInterval_below (s := boundaryCounted s) hlt
  refine ⟨boundaryCounted s, _, countdown_spec s, execLocalPeriodBoundary_probeEngine hr hb, hcount, fun k hk => ?_⟩
  exact execProbeTimeout_eq hr hb hk

/-! ## The rotation step -/

section
variable {s : State}

/-- The search of a rotation step finds the first slot that wants a probe in a state (R107, R108). -/
theorem find_firstWanting {state : CheckState} {i : Slot} (h : FirstWanting s state i) :
    (searchOrder s.probe.rotationIndex).find? (wanting s state) = some i := by
  obtain ⟨hwants, d, hd, hfirst⟩ := h
  exact (searchOrder_find ..).mpr
    ⟨(wanting_iff ..).mpr hwants, d, hd, fun d' hlt hw => hfirst d' hlt ((wanting_iff ..).mp hw)⟩

theorem find_noneWanting {state : CheckState} (h : ∀ i, ¬ Wants s state i) :
    (searchOrder s.probe.rotationIndex).find? (wanting s state) = none :=
  (searchOrder_find_none ..).mpr fun i hw => h i ((wanting_iff ..).mp hw)

/-- A soaking slot is armed before a verified one (R108). -/
theorem slotToArm_first {i : Slot}
    (h : FirstWanting s .soaking i ∨ (∀ j, ¬ Wants s .soaking j) ∧ FirstWanting s .verified i) :
    slotToArm s = some i := by
  rcases h with h | ⟨hnone, h⟩
  · rw [slotToArm, find_firstWanting h]
  · rw [slotToArm, find_noneWanting hnone, find_firstWanting h]

theorem slotToArm_none (h : ∀ i, ¬ Wants s .soaking i ∧ ¬ Wants s .verified i) : slotToArm s = none := by
  rw [slotToArm, find_noneWanting fun i => (h i).1, find_noneWanting fun i => (h i).2]

theorem rotationStep_full (h : ∀ k : Fin 8, s.probe.table[k] ≠ none) : rotationStep s = s := by
  rw [rotationStep, (lowestFree_eq_none _).mpr h]

theorem rotationStep_unwanted (h : ∀ i, ¬ Wants s .soaking i ∧ ¬ Wants s .verified i) : rotationStep s = s := by
  rw [rotationStep, slotToArm_none h]
  split <;> rfl

theorem rotationStep_arms {k : Fin 8} {i : Slot} (hfree : s.probe.table[k] = none)
    (hlow : ∀ k' < k, s.probe.table[k'] ≠ none)
    (hi : FirstWanting s .soaking i ∨ (∀ j, ¬ Wants s .soaking j) ∧ FirstWanting s .verified i) :
    rotationStep s = armSlot s k i := by
  rw [rotationStep, (lowestFree_eq_some ..).mpr ⟨hfree, hlow⟩, slotToArm_first hi]

theorem armSlot_slots (s : State) (k : Fin 8) (i : Slot) :
    (armSlot s k i).slots = (s.modSlot i fun sl =>
      { sl with probe := { sl.probe with nextNumber := numberAfter sl.probe.nextNumber } }).slots := rfl

end

/-- Settles O11: the boundary at the interval is the countdown, then a rotation step with the count at 0. -/
theorem intervalExpiryTakesARotationStep : Obligations.IntervalExpiryTakesARotationStep := by
  intro s hr hb hle
  have hcount := countInterval_at (s := boundaryCounted s) hle
  refine ⟨boundaryCounted s, _, countdown_spec s, execIntervalCountExpiry_eq hr hb hle,
    execLocalPeriodBoundary_probeEngine hr hb, fun k hk => execProbeTimeout_eq hr hb hk, fun hfull => ?_,
    fun hnone => ?_, fun k i hfree hlow hi => ?_⟩
  · exact hcount.trans (rotationStep_full hfull)
  · exact hcount.trans (rotationStep_unwanted hnone)
  · have harmed := hcount.trans (rotationStep_arms hfree hlow hi)
    dsimp only
    rw [harmed]
    refine ⟨rfl, rfl, fun j hj => ?_, ?_⟩
    · rw [armSlot_slots, State.modSlot_other _ hj]
    · rw [armSlot_slots, State.modSlot_same]
      rfl

end Sys2Proof.Machine
end

section
/-! PROOFS. The echo receipt (O33): the arithmetic of samples and stamps, the probe table, and one description of what
an echo receipt leaves, with an equation for each way it can be judged. -/

namespace Sys2Proof.Machine

/-! ## Samples and stamps -/

/-- A stamp moved back by whole tag cycles, modulo 2^32 (R120, R126). -/
theorem ageCorrected_toNat (r : Stamp) (age : Nat) :
    ((ageCorrected r age).toNat : Int) = ((r.toNat : Int) - age * 16384) % 4294967296 := by
  have hticks : age * Config.periodTicks = age * 16384 := rfl
  rw [ageCorrected, BitVec.toNat_sub, BitVec.toNat_ofNat, hticks]
  omega

/-- A sample is the received stamp less the ages, the launch and the hold, modulo 2^32 (R126). -/
theorem sampleOf_toInt (launch received : Stamp) (age hold : Nat) :
    (sampleOf launch received age hold : Int) =
      ((received.toNat : Int) - age * 16384 - launch.toNat - hold) % 4294967296 := by
  have hage := ageCorrected_toNat received age
  rw [sampleOf, BitVec.toNat_sub, BitVec.toNat_sub, BitVec.toNat_ofNat]
  omega

/-! ## The probe table -/

section
variable {t : Vector (Option ProbeEntry) 8} {i : Slot} {n : Byte}

/-- An echo matches the IN_FLIGHT entry of its slot that has its number (R115). -/
def EchoMatches (t : Vector (Option ProbeEntry) 8) (i : Slot) (n : Byte) : Prop :=
  ∃ (k : Fin 8) (e : ProbeEntry) (launch : Stamp),
    t[k] = some e ∧ e.slot = i ∧ e.number = n ∧ e.launch = some launch

theorem launchOf_matched (ht : OnePerSlot t) {k : Fin 8} {e : ProbeEntry} {launch : Stamp} (hk : t[k] = some e)
    (hi : e.slot = i) (hn : e.number = n) (hl : e.launch = some launch) : launchOf t i n = some launch := by
  subst hi
  rw [launchOf, entryOf_eq_some ht hk]
  exact (if_pos hn).trans hl

theorem launchOf_unmatched (h : ¬ EchoMatches t i n) : launchOf t i n = none := by
  unfold launchOf
  split
  · next e he =>
    obtain ⟨k, hk⟩ := (mem_entriesOf t e).mp (List.mem_of_find?_eq_some he)
    have hi : e.slot = i := by simpa using List.find?_some he
    split
    · next hn => exact Option.eq_none_iff_forall_ne_some.mpr fun launch hl => h ⟨k, e, launch, hk, hi, hn, hl⟩
    · rfl
  · rfl

/-- With one entry per slot, freeing a slot's entry frees one place of the table (R104). -/
theorem freeEntry_eq_set (ht : OnePerSlot t) {k : Fin 8} {e : ProbeEntry} (hk : t[k] = some e) (hi : e.slot = i) :
    freeEntry t i = t.set k none := by
  refine Vector.ext fun j hj => ?_
  show (freeEntry t i)[(⟨j, hj⟩ : Fin 8)] = (t.set k none)[(⟨j, hj⟩ : Fin 8)]
  rw [freeEntry_get, table_set_get]
  split
  · next hjk => rw [hjk, hk, Option.bind_some, if_pos hi]
  · next hjk =>
    cases hx : t[(⟨j, hj⟩ : Fin 8)] with
    | none => rfl
    | some x =>
      refine if_neg fun hxi => hjk ?_
      exact (onePerSlot_iff t).mp ht _ _ x e hx hk (hxi.trans hi.symm)

end

/-! ## What an echo receipt leaves -/

/-- What an echo receipt can change beside the two records of numbers and the pending echo: the slot's filter and its
accepted samples, and the probe table with two of its counts. -/
structure EchoResult where
  average : Option Nat
  sampleCount : Nat
  samples : Nat
  table : Vector (Option ProbeEntry) 8
  late : Nat
  rejected : Nat

/-- The slot once the echo has been judged, before the responder: its number is kept unless there is none (R116). -/
def echoSlot (h : EchoHandoff) (rest : List EchoHandoff) (x : EchoResult) (sl : SlotState) : SlotState :=
  { sl with
    probe := { sl.probe with
      lastEcho := if h.echoNumber = 0 then sl.probe.lastEcho else h.echoNumber
      average := x.average, sampleCount := x.sampleCount }
    inFlight := { sl.inFlight with echoes := rest, samples := x.samples } }

/-- The part once the echo has been judged, before the responder. -/
def echoJudged (s : State) (i : Slot) (h : EchoHandoff) (rest : List EchoHandoff) (x : EchoResult) : State :=
  { s.modSlot i (echoSlot h rest x) with
    probe := { s.probe with table := x.table, late := x.late, rejected := x.rejected } }

/-- The part after an echo receipt (R120). -/
def echoReceived (s : State) (i : Slot) (h : EchoHandoff) (rest : List EchoHandoff) (x : EchoResult) : State :=
  (echoJudged s i h rest x).modSlot i fun sl => { sl with probe := respond h sl.probe }

/-- Nothing of it changes. -/
def echoUnjudged (s : State) (i : Slot) : EchoResult :=
  { average := s.slots[i].probe.average, sampleCount := s.slots[i].probe.sampleCount
    samples := s.slots[i].inFlight.samples, table := s.probe.table, late := s.probe.late, rejected := s.probe.rejected }

/-- An echo that matches no entry is late when its number is new (R116). -/
def echoUnmatched (s : State) (i : Slot) (h : EchoHandoff) : EchoResult :=
  { echoUnjudged s i with
    late := if h.echoNumber = s.slots[i].probe.lastEcho then s.probe.late else satInc Config.countMax s.probe.late }

/-- An echo that matches frees the entry (R115). -/
def echoFreed (s : State) (i : Slot) : EchoResult := { echoUnjudged s i with table := freeEntry s.probe.table i }

/-- A sample out of range is counted rejected (R127). -/
def echoRejected (s : State) (i : Slot) : EchoResult :=
  { echoFreed s i with rejected := satInc Config.countMax s.probe.rejected }

/-- An accepted sample enters the filter and is handed on (R115, R128 to R130). -/
def echoAccepted (s : State) (i : Slot) (entry : MapEntry) (sample : Nat) : EchoResult :=
  { echoFreed s i with
    average := some (averageAfter s.slots[i].probe.average sample s.profiles[entry.profile].filterWeight)
    sampleCount := satInc Config.countMax s.slots[i].probe.sampleCount
    samples := s.slots[i].inFlight.samples + 1 }

section
variable {s : State} {i : Slot} {h : EchoHandoff} {rest : List EchoHandoff}

theorem echoReceived_slot (x : EchoResult) : (echoReceived s i h rest x).slots[i] =
    { echoSlot h rest x s.slots[i] with probe := respond h (echoSlot h rest x s.slots[i]).probe } := by
  have hjudged : (echoJudged s i h rest x).slots[i] = echoSlot h rest x s.slots[i] := State.modSlot_same s i _
  rw [echoReceived, State.modSlot_same, hjudged]

theorem echoReceived_other (x : EchoResult) {j : Slot} (hj : j ≠ i) :
    (echoReceived s i h rest x).slots[j] = s.slots[j] := by
  have hjudged : (echoJudged s i h rest x).slots[j] = s.slots[j] := State.modSlot_other s hj _
  rw [echoReceived, State.modSlot_other _ hj, hjudged]

/-- The responder changes the pending echo and its number alone (R120). -/
theorem respond_rest (h : EchoHandoff) (p : SlotProbe) :
    respond h p = { p with
      lastResponded := (respond h p).lastResponded, pendingEcho := (respond h p).pendingEcho } := by
  unfold respond
  split <;> rfl

theorem respond_new {p : SlotProbe} (h0 : h.probeNumber ≠ 0) (hn : h.probeNumber ≠ p.lastResponded) :
    respond h p = { p with
      lastResponded := h.probeNumber
      pendingEcho := some { number := h.probeNumber, received := ageCorrected h.cycleStart h.probeAge } } :=
  if_neg (not_or.mpr ⟨h0, hn⟩)

theorem respond_old {p : SlotProbe} (hn : h.probeNumber = 0 ∨ h.probeNumber = p.lastResponded) : respond h p = p :=
  if_pos hn

/-- The part with the hand-off taken from its queue. -/
def echoTaken (s : State) (i : Slot) (rest : List EchoHandoff) : State :=
  s.modSlot i fun sl => { sl with inFlight := { sl.inFlight with echoes := rest } }

theorem echoTaken_slot : (echoTaken s i rest).slots[i] =
    { s.slots[i] with inFlight := { s.slots[i].inFlight with echoes := rest } } := State.modSlot_same s i _

theorem execEchoReceipt_eq (hr : s.resetHeld = false) (hq : s.slots[i].inFlight.echoes = h :: rest) :
    exec (.echoReceipt i) s = .next (takeHandoff (echoTaken s i rest) i h) := by
  show execEchoReceipt i s = _
  rw [execEchoReceipt, act_running hr, hq]
  rfl

theorem takeHandoff_other (ho : s.slots[i].map.txRole ≠ .originate) :
    takeHandoff (echoTaken s i rest) i h = echoTaken s i rest :=
  if_neg (by rw [echoTaken_slot]; exact ho)

/-! ## How an echo is judged -/

theorem modSlot_modSlot (s : State) (i : Slot) (f g : SlotState → SlotState) :
    (s.modSlot i f).modSlot i g = s.modSlot i (g ∘ f) := by
  simp [State.modSlot]

theorem modSlot_congr {s : State} {i : Slot} {f g : SlotState → SlotState} (h : f s.slots[i] = g s.slots[i]) :
    s.modSlot i f = s.modSlot i g := by
  rw [State.modSlot, State.modSlot, h]

/-- A judgement is known by what it makes of the slot and of the probe engine. -/
theorem eq_echoJudged {x : EchoResult} {f : SlotState → SlotState} {P : ProbeEngine}
    (hf : f { s.slots[i] with inFlight := { s.slots[i].inFlight with echoes := rest } } =
      echoSlot h rest x s.slots[i])
    (hP : P = { s.probe with table := x.table, late := x.late, rejected := x.rejected }) :
    { (echoTaken s i rest).modSlot i f with probe := P } = echoJudged s i h rest x := by
  rw [echoTaken, modSlot_modSlot, modSlot_congr (Function.comp_apply.trans hf), hP]
  rfl

/-- The echo's number becomes the slot's last one (R116). -/
def numberEcho (n : Byte) (sl : SlotState) : SlotState := { sl with probe := { sl.probe with lastEcho := n } }

theorem echoSlot_numbered (h0 : h.echoNumber ≠ 0) (x : EchoResult) (sl : SlotState) :
    echoSlot h rest x sl = { sl with
      probe := { sl.probe with
        lastEcho := h.echoNumber, average := x.average, sampleCount := x.sampleCount }
      inFlight := { sl.inFlight with echoes := rest, samples := x.samples } } := by
  rw [echoSlot, if_neg h0]

theorem takeEcho_none (h0 : h.echoNumber ≠ 0) (hl : launchOf s.probe.table i h.echoNumber = none) :
    takeEcho s i h = (unmatchedEcho s i h).modSlot i (numberEcho h.echoNumber) := by
  rw [takeEcho, if_neg h0, hl]
  rfl

theorem takeEcho_some {launch : Stamp} (h0 : h.echoNumber ≠ 0)
    (hl : launchOf s.probe.table i h.echoNumber = some launch) :
    takeEcho s i h = (matchedEcho s i launch h).modSlot i (numberEcho h.echoNumber) := by
  rw [takeEcho, if_neg h0, hl]
  rfl

theorem unmatchedEcho_eq (s : State) (i : Slot) (h : EchoHandoff) :
    unmatchedEcho s i h = { s with probe := { s.probe with
      late := if h.echoNumber = s.slots[i].probe.lastEcho then s.probe.late
        else satInc Config.countMax s.probe.late } } := by
  by_cases hn : h.echoNumber = s.slots[i].probe.lastEcho
  · rw [unmatchedEcho, if_pos hn, if_pos hn]
  · rw [unmatchedEcho, if_neg hn, if_neg hn]

/-- An echo whose sample does not enter the filter changes the slot's last number alone. -/
theorem numberEcho_unfiltered (h0 : h.echoNumber ≠ 0) {x : EchoResult} (ha : x.average = s.slots[i].probe.average)
    (hc : x.sampleCount = s.slots[i].probe.sampleCount) (hs : x.samples = s.slots[i].inFlight.samples) :
    numberEcho h.echoNumber { s.slots[i] with inFlight := { s.slots[i].inFlight with echoes := rest } } =
      echoSlot h rest x s.slots[i] := by
  rw [echoSlot_numbered h0, ha, hc, hs]
  rfl

/-- How an echo is judged: by its number, by the entry that it matches, by the map entry and by its sample (R115, R116,
R119, R127). -/
def echoResult (s : State) (i : Slot) (h : EchoHandoff) : EchoResult :=
  if h.echoNumber = 0 then echoUnjudged s i
  else match launchOf s.probe.table i h.echoNumber with
    | none => echoUnmatched s i h
    | some launch => match s.slots[i].map.entry with
      | none => echoFreed s i
      | some entry =>
        let sample := sampleOf launch h.cycleStart h.echoAge h.echoHold
        if sampleAccepted sample then echoAccepted s i entry sample else echoRejected s i

theorem takeEcho_eq : takeEcho (echoTaken s i rest) i h = echoJudged s i h rest (echoResult s i h) := by
  unfold echoResult
  split
  · next h0 =>
    rw [takeEcho, if_pos h0]
    simp [echoTaken, echoJudged, echoSlot, echoUnjudged, State.modSlot, h0]
  · next h0 =>
    split
    · next hl =>
      rw [takeEcho_none (s := echoTaken s i rest) h0 hl, unmatchedEcho_eq, echoTaken_slot]
      exact eq_echoJudged (numberEcho_unfiltered h0 rfl rfl rfl) rfl
    · next launch hl =>
      rw [takeEcho_some (s := echoTaken s i rest) h0 hl, matchedEcho, echoTaken_slot]
      dsimp only
      cases he : s.slots[i].map.entry with
      | none => exact eq_echoJudged (numberEcho_unfiltered h0 rfl rfl rfl) rfl
      | some entry =>
        rw [if_neg (show ¬ (some entry).isNone = true from Bool.false_ne_true)]
        dsimp only
        split
        · rw [modSlot_modSlot]
          refine eq_echoJudged ?_ rfl
          rw [echoSlot_numbered h0, Function.comp_apply, acceptSample, slotProfile_of_entry he]
          rfl
        · exact eq_echoJudged (numberEcho_unfiltered h0 rfl rfl rfl) rfl

theorem takeHandoff_eq (ho : s.slots[i].map.txRole = .originate) :
    takeHandoff (echoTaken s i rest) i h = echoReceived s i h rest (echoResult s i h) := by
  rw [takeHandoff, if_pos (by rw [echoTaken_slot]; exact ho), takeEcho_eq]
  rfl

theorem echoResult_absent (h0 : h.echoNumber = 0) : echoResult s i h = echoUnjudged s i := if_pos h0

theorem echoResult_unmatched (h0 : h.echoNumber ≠ 0) (hm : ¬ EchoMatches s.probe.table i h.echoNumber) :
    echoResult s i h = echoUnmatched s i h := by
  rw [echoResult, if_neg h0, launchOf_unmatched hm]

section
variable {launch : Stamp} (h0 : h.echoNumber ≠ 0) (hl : launchOf s.probe.table i h.echoNumber = some launch)
include h0 hl

theorem echoResult_unsampled (he : s.slots[i].map.entry = none) : echoResult s i h = echoFreed s i := by
  rw [echoResult, if_neg h0, hl, he]

variable {entry : MapEntry} {sample : Nat} (he : s.slots[i].map.entry = some entry)
  (hsample : sampleOf launch h.cycleStart h.echoAge h.echoHold = sample)
include he hsample

theorem echoResult_accepted (hs : sample < 1048576) : echoResult s i h = echoAccepted s i entry sample := by
  rw [echoResult, if_neg h0, hl, he]
  dsimp only
  rw [hsample, if_pos ((sampleAccepted_iff sample).mpr hs)]

theorem echoResult_rejected (hs : 1048576 ≤ sample) : echoResult s i h = echoRejected s i := by
  rw [echoResult, if_neg h0, hl, he]
  dsimp only
  rw [hsample, if_neg (mt (sampleAccepted_iff sample).mp (Nat.not_lt.mpr hs))]

end

/-- A matched echo frees the entry and is not late, whatever becomes of its sample (R115, R119). -/
theorem echoResult_matched {launch : Stamp} (h0 : h.echoNumber ≠ 0)
    (hl : launchOf s.probe.table i h.echoNumber = some launch) :
    (echoResult s i h).table = freeEntry s.probe.table i ∧ (echoResult s i h).late = s.probe.late := by
  rw [echoResult, if_neg h0, hl]
  dsimp only
  repeat' split
  all_goals exact ⟨rfl, rfl⟩

/-- One more below a bound. -/
theorem satInc_eq (bound n : Nat) : satInc bound n = if n < bound then n + 1 else n := rfl

/-- The count of late echoes grows when the number is new and the count is not at its bound (R116, R123). -/
theorem echoUnmatched_late (s : State) (i : Slot) (h : EchoHandoff) :
    (echoUnmatched s i h).late =
      if h.echoNumber ≠ s.slots[i].probe.lastEcho ∧ s.probe.late < 65535 then s.probe.late + 1 else s.probe.late := by
  by_cases hn : h.echoNumber = s.slots[i].probe.lastEcho
  · exact (if_pos hn).trans (if_neg fun hc => hc.1 hn).symm
  · exact (if_neg hn).trans ((satInc_eq ..).trans (if_congr (and_iff_right hn).symm rfl rfl))

@[simp] theorem respond_average (p : SlotProbe) : (respond h p).average = p.average := by rw [respond_rest]

@[simp] theorem respond_sampleCount (p : SlotProbe) : (respond h p).sampleCount = p.sampleCount := by
  rw [respond_rest]

end

/-- Settles O33: the echo is judged by one of the rows of `echoResult`, and the responder takes the probe number. -/
theorem echoReceiptMatchesTheEntry : Obligations.EchoReceiptMatchesTheEntry := by
  intro s i h rest hr hq hone sl matched
  refine ⟨_, execEchoReceipt_eq hr hq, fun ho => ?_, fun ho => ?_⟩
  · rw [takeHandoff_other ho]
    exact slotBecomes_modSlot s i _
  · rw [takeHandoff_eq ho, echoReceived_slot]
    simp only [respond_average, respond_sampleCount]
    refine ⟨rfl, fun j hj => echoReceived_other _ hj, ?_, fun hp0 hpn => ?_, fun hp => ?_, fun h0 => ?_,
      fun h0 hm => ?_, fun k e launch h0 hk hi hn hl => ?_⟩
    · rw [respond_rest]
      rfl
    · rw [respond_new (p := (echoSlot h rest (echoResult s i h) sl).probe) hp0 hpn]
      exact ⟨rfl, _, rfl, ageCorrected_toNat ..⟩
    · rw [respond_old (p := (echoSlot h rest (echoResult s i h) sl).probe) hp]
      exact ⟨rfl, rfl⟩
    · rw [echoResult_absent h0]
      exact ⟨rfl, rfl, rfl, rfl⟩
    · rw [echoResult_unmatched h0 hm]
      refine ⟨⟨rfl, rfl, rfl⟩, ?_⟩
      rw [← echoUnmatched_late]
      rfl
    · have hlaunch := launchOf_matched hone hk hi hn hl
      obtain ⟨htable, hlate⟩ := echoResult_matched h0 hlaunch
      refine ⟨htable.trans (freeEntry_eq_set hone hk hi), hlate, fun he => ?_, fun entry sample he hsample => ?_⟩
      · rw [echoResult_unsampled h0 hlaunch he]
        exact ⟨⟨rfl, rfl, rfl⟩, rfl⟩
      · have hsample : sampleOf launch h.cycleStart h.echoAge h.echoHold = sample :=
          Int.ofNat_inj.mp ((sampleOf_toInt ..).trans hsample.symm)
        refine ⟨fun hs => ?_, fun hs => ?_⟩
        · rw [echoResult_rejected h0 hlaunch he hsample hs]
          exact ⟨⟨rfl, rfl, rfl⟩, rfl⟩
        · rw [echoResult_accepted h0 hlaunch he hsample hs]
          refine ⟨rfl, rfl, rfl, fun ha => ?_, fun a ha => ?_⟩
          · exact congrArg (fun average => some (averageAfter average sample _)) ha
          · exact congrArg (fun average => some (averageAfter average sample _)) ha

end Sys2Proof.Machine
end

section
/-! PROOFS. The delay arithmetic (O53): the rounding is the only nearest integer with exact halves even, so that its
oddness and its zero step need no look at the quotient and remainder. -/

namespace Sys2Proof.Machine

/-! ## Rounding -/

/-- `q` is `n / d` rounded to nearest: within one half of the exact quotient, and even when exactly one half off
(R131). -/
def RoundsTo (n : Int) (d : Nat) (q : Int) : Prop :=
  2 * (q * d - n).natAbs ≤ d ∧ (2 * (q * d - n).natAbs = d → q % 2 = 0)

/-- An exact half goes to the even integer (R131). -/
theorem roundHalfEven_even_of_half {d : Nat} (hd : 0 < d) {n : Int}
    (hhalf : 2 * (roundHalfEven n d * d - n).natAbs = d) : roundHalfEven n d % 2 = 0 := by
  have hdiv : n / d * d + n % d = n := Int.ediv_mul_add_emod n d
  have hlow : 0 ≤ n % d := Int.emod_nonneg n (by omega)
  have hhigh : n % d < d := Int.emod_lt_of_pos n (by omega)
  have hup : (n / d + 1) * (d : Int) = n / d * d + d := by ring
  revert hhalf
  unfold roundHalfEven
  dsimp only
  split
  case isTrue hbelow => omega
  case isFalse =>
    split
    case isTrue habove => omega
    case isFalse =>
      split
      case isTrue heven => exact fun _ => heven
      case isFalse hodd => omega

theorem roundHalfEven_roundsTo {d : Nat} (hd : 0 < d) (n : Int) : RoundsTo n d (roundHalfEven n d) :=
  ⟨roundHalfEven_near hd n, roundHalfEven_even_of_half hd⟩

/-- Of two nearest integers the larger is the smaller's successor and both are exactly one half off, so that they cannot
both be even. -/
theorem RoundsTo.le {n : Int} {d : Nat} {p q : Int} (hd : 0 < d) (hp : RoundsTo n d p) (hq : RoundsTo n d q) :
    q ≤ p := by
  obtain ⟨hpnear, hpeven⟩ := hp
  obtain ⟨hqnear, hqeven⟩ := hq
  by_contra hlt
  have hgap : p * d + (q - p) * d = q * d := by ring
  have hsucc : q = p + 1 := by
    by_contra hne
    have : 2 * (d : Int) ≤ (q - p) * d := Int.mul_le_mul_of_nonneg_right (by omega) (by omega)
    omega
  have hone : (q - p) * (d : Int) = d := by rw [hsucc]; ring
  have hp2 : p % 2 = 0 := hpeven (by omega)
  have hq2 : q % 2 = 0 := hqeven (by omega)
  omega

theorem RoundsTo.unique {n : Int} {d : Nat} {p q : Int} (hd : 0 < d) (hp : RoundsTo n d p) (hq : RoundsTo n d q) :
    p = q :=
  Int.le_antisymm (hq.le hd hp) (hp.le hd hq)

theorem RoundsTo.neg {n : Int} {d : Nat} {q : Int} (h : RoundsTo n d q) : RoundsTo (-n) d (-q) := by
  obtain ⟨hnear, heven⟩ := h
  have hdist : -q * (d : Int) - -n = -(q * d - n) := by ring
  unfold RoundsTo
  rw [hdist, Int.natAbs_neg]
  exact ⟨hnear, fun hhalf => by rw [Int.neg_emod_two, heven hhalf]⟩

/-- Up to one half is rounded to zero, which is even (R131). -/
theorem roundsTo_zero {n : Int} {d : Nat} (h : 2 * n.natAbs ≤ d) : RoundsTo n d 0 := by
  refine ⟨?_, fun _ => rfl⟩
  rw [Int.zero_mul, Int.zero_sub, Int.natAbs_neg]
  exact h

/-- The rounding is odd in the distance (R131). -/
theorem roundHalfEven_neg {d : Nat} (hd : 0 < d) (n : Int) : roundHalfEven (-n) d = -roundHalfEven n d :=
  (roundHalfEven_roundsTo hd (-n)).unique hd (roundHalfEven_roundsTo hd n).neg

/-- The step is zero up to one half of the divisor (R131). -/
theorem roundHalfEven_eq_zero {d : Nat} (hd : 0 < d) {n : Int} (h : 2 * n.natAbs ≤ d) : roundHalfEven n d = 0 :=
  (roundHalfEven_roundsTo hd n).unique hd (roundsTo_zero h)

/-! ## The filter and the one-way delay -/

/-- The average moves by exactly the step: the sum is never negative, so it is not cut off (R130, R132). -/
theorem averageAfter_eq_add (average sample weight : Nat) :
    (averageAfter (some average) sample weight : Int) =
      average + roundHalfEven (16 * (sample : Int) - average) (2 ^ weight) := by
  have hstep := (roundHalfEven_between (Nat.two_pow_pos weight) (16 * (sample : Int) - average)).1
  exact Int.toNat_of_nonneg (by unfold filterStep; omega)

/-- The one-way delay is the rounded quotient of R136, which is never negative. -/
theorem oneWayDelay_eq (average : Nat) : (oneWayDelay average : Int) = roundHalfEven ((average : Int) * 125) 2048 := by
  have hlow := (roundHalfEven_between (d := 2048) (by decide) ((average : Int) * 125)).1
  exact Int.toNat_of_nonneg (by omega)

theorem oneWayDelay_roundsTo (average : Nat) : RoundsTo ((average : Int) * 125) 2048 (oneWayDelay average) := by
  rw [oneWayDelay_eq]
  exact roundHalfEven_roundsTo (by decide) _

/-- Settles O53: the rounding is the one nearest integer that is even at exact halves; the filter step and the one-way
delay are roundings. -/
theorem delaysRoundHalvesToEven : Obligations.DelaysRoundHalvesToEven := by
  refine ⟨fun a => oneWayDelay_roundsTo a, fun d k => ?_⟩
  have hpos : 0 < 2 ^ k := Nat.two_pow_pos k
  obtain ⟨hnear, heven⟩ := roundHalfEven_roundsTo hpos d
  rw [Nat.cast_pow, Nat.cast_ofNat] at hnear heven
  refine ⟨hnear, heven, roundHalfEven_neg hpos d, fun _ hhalf => roundHalfEven_eq_zero hpos hhalf, ?_⟩
  rintro average sample rfl
  exact ⟨averageAfter_eq_add average sample k, averageAfter_between average sample k⟩

end Sys2Proof.Machine
end

section
/-! PROOFS. The report unit takes a finding (O34). -/

namespace Sys2Proof.Machine

/-! ## The class, the flags and the queue -/

/-- The class of a finding is the one that R140 names: INFO without a cause, else the severity of its cause. -/
theorem classOf_eq {table : Vector Severity 13} {cause : Option Cause} {cls : FindingClass}
    (hinfo : cause = none → cls = .info)
    (hcause : ∀ c, cause = some c → cls = severityClass table[causeIndex c]) : classOf table cause = cls := by
  cases cause with
  | none => exact (hinfo rfl).symm
  | some c => exact (hcause c rfl).symm

/-- A finding sets the detected flag of its class and no other (R143). -/
theorem seenAfter_eq (seen : PerSeverity) (cls : FindingClass) :
    seenAfter seen cls =
      { minor := seen.minor || cls == .minor, major := seen.major || cls == .major
        critical := seen.critical || cls == .critical } := by
  cases cls <;> simp [seenAfter, beq_eq_decide]

/-- A finding of a slot without a record is appended (R145). -/
theorem enqueue_append {q : List QueuedFinding} {f : Finding} (h : ∀ r ∈ q, r.finding.slot ≠ f.slot)
    (cls : FindingClass) : enqueue q f cls = q ++ [{ finding := f, cls := cls, superseded := 0 }] := by
  refine if_neg fun hrec => ?_
  obtain ⟨r, hr, hslot⟩ := List.mem_map.mp ((hasRecord_iff q f.slot).mp hrec)
  exact h r hr hslot

theorem map_replaceRecord_other {q : List QueuedFinding} {f : Finding} (h : f.slot ∉ recordSlots q)
    (cls : FindingClass) : q.map (replaceRecord f cls) = q := by
  refine (List.map_congr_left fun r hr => ?_).trans (List.map_id q)
  exact if_neg fun hslot => h (List.mem_map.mpr ⟨r, hr, hslot⟩)

/-- A finding of a slot with a record takes that record's place, and no other record moves or changes (R145). -/
theorem enqueue_replace {before after : List QueuedFinding} {q : QueuedFinding} {f : Finding}
    (hone : (recordSlots (before ++ q :: after)).Nodup) (hq : q.finding.slot = f.slot) (cls : FindingClass) :
    enqueue (before ++ q :: after) f cls =
      before ++ { finding := f, cls := cls, superseded := satInc 255 q.superseded } :: after := by
  have hslots : recordSlots (before ++ q :: after) = recordSlots before ++ f.slot :: recordSlots after := by
    rw [recordSlots, List.map_append, List.map_cons, hq]
    rfl
  rw [hslots, List.nodup_middle, List.nodup_cons, List.mem_append, not_or] at hone
  obtain ⟨⟨hbefore, hafter⟩, -⟩ := hone
  rw [enqueue, if_pos ((hasRecord_iff _ _).mpr (by rw [hslots]; simp)), List.map_append, List.map_cons,
    map_replaceRecord_other hbefore, map_replaceRecord_other hafter, replaceRecord, if_pos hq]

/-! ## The finding at the report unit -/

theorem reportFinding_settings (r : ReportUnit) (f : Finding) : (reportFinding r f).settings = r.settings := by
  unfold reportFinding
  dsimp only
  split <;> rfl

theorem reportFinding_seen (r : ReportUnit) (f : Finding) :
    (reportFinding r f).seen = seenAfter r.seen (classOf r.settings.severity f.cause) := by
  unfold reportFinding
  dsimp only
  split <;> rfl

/-- A finding changes the report unit and the slots alone. -/
theorem takeFinding_rest (s : State) (f : Finding) :
    takeFinding s f = { s with report := (takeFinding s f).report, slots := (takeFinding s f).slots } := by
  unfold takeFinding
  dsimp only
  split <;> rfl

/-- Of a slot, a finding changes the mirror alone: it is set at the finding's slot when the class is reported (R97). -/
theorem takeFinding_slot {s : State} {f : Finding} {cls : FindingClass}
    (hc : classOf s.report.settings.severity f.cause = cls) (j : Slot) :
    (takeFinding s f).slots[j] = { s.slots[j] with context := { s.slots[j].context with
      findingPending :=
        s.slots[j].context.findingPending || (reportEnabled s.report.settings cls && j == f.slot) } } := by
  subst hc
  cases he : reportEnabled s.report.settings (classOf s.report.settings.severity f.cause) with
  | false =>
    rw [(takeFinding_disabled (ne_true_of_eq_false he)).2, Bool.false_and, Bool.or_false]
  | true =>
    rw [takeFinding, if_pos he, setPending, State.modSlot_slot]
    by_cases hj : j = f.slot
    · rw [if_pos hj, beq_iff_eq.mpr hj, Bool.and_self, Bool.or_true]
    · rw [if_neg hj, beq_eq_false_iff_ne.mpr hj, Bool.and_false, Bool.or_false]

/-! ## The finding taken -/

section
variable {s : State} {i : Slot} {f : Finding} {rest : List Finding}

/-- The state once the oldest finding of a slot has been taken off its list. -/
def findingTaken (s : State) (i : Slot) (rest : List Finding) : State :=
  s.modSlot i fun sl => { sl with inFlight := { sl.inFlight with findings := rest } }

theorem findingTaken_slot (j : Slot) : (findingTaken s i rest).slots[j] = { s.slots[j] with
    inFlight := { s.slots[j].inFlight with
      findings := if j = i then rest else s.slots[j].inFlight.findings } } := by
  rw [findingTaken, State.modSlot_slot]
  split <;> rfl

theorem execFinding_eq (hr : s.resetHeld = false) (hq : s.slots[i].inFlight.findings = f :: rest) :
    exec (.finding i) s = .next (takeFinding (findingTaken s i rest) f) := by
  show execFinding i s = _
  rw [execFinding, act_running hr, hq]
  rfl

end

/-- Settles O34: the finding's class is that of R140, and the report unit, the queue and the mirror follow it. -/
theorem findingIsClassedFlaggedAndQueued : Obligations.FindingIsClassedFlaggedAndQueued := by
  intro s i f rest cls hr hq hinfo hcause enabled
  have hcls : classOf s.report.settings.severity f.cause = cls := classOf_eq hinfo hcause
  have henabled : reportEnabled s.report.settings cls = enabled := rfl
  have hreport : (takeFinding (findingTaken s i rest) f).report = reportFinding s.report f := takeFinding_report ..
  have hqueued (he : enabled = true) :
      (takeFinding (findingTaken s i rest) f).report.queue = enqueue s.report.queue f cls :=
    (takeFinding_enabled (s := findingTaken s i rest) hcls he).1
  refine ⟨_, execFinding_eq hr hq, takeFinding_rest .., ?_, ?_, ?_, fun he => ?_, fun he hnew => ?_,
    fun he hone before q after hsplit hslot => ?_, fun j => ?_⟩
  · rw [hreport, reportFinding_settings]
  · rw [hreport, reportFinding_seen, hcls, seenAfter_eq]
  · rw [hreport, reportFinding_alert, reportFinding_settings]
    rfl
  · refine (takeFinding_disabled (s := findingTaken s i rest) ?_).1
    exact ne_true_of_eq_false ((congrArg (reportEnabled s.report.settings) hcls).trans he)
  · rw [hqueued he, enqueue_append hnew]
  · rw [OneRecordPerSlot, hsplit] at hone
    rw [hqueued he, hsplit, enqueue_replace hone hslot, satInc_eq]
  · rw [takeFinding_slot (s := findingTaken s i rest) hcls, findingTaken_slot, ← henabled]
    rfl

end Sys2Proof.Machine
end

section
/-! PROOFS. The notice of the head record (O35): its 29 bytes in the layout of R142, and its start. -/

namespace Sys2Proof.Machine

/-! ## Numbers as bytes -/

/-- A number modulo 65536 in its two bytes, high byte first. -/
theorem append_ofNat_bytes (n : Nat) :
    (BitVec.ofNat 8 (n / 256) : Byte) ++ (BitVec.ofNat 8 n : Byte) = BitVec.ofNat 16 n := by
  apply BitVec.eq_of_toNat_eq
  rw [BitVec.toNat_append, ← Nat.shiftLeft_add_eq_or_of_lt (BitVec.isLt _), Nat.shiftLeft_eq]
  simp only [BitVec.toNat_ofNat]
  omega

theorem beBytes_four (n : Nat) :
    beBytes 4 n = [BitVec.ofNat 8 (n / 16777216), BitVec.ofNat 8 (n / 65536), BitVec.ofNat 8 (n / 256),
      BitVec.ofNat 8 n] := by simp [beBytes]

/-- A 32-bit value in its four bytes, high byte first. -/
theorem append_ofNat_words (x : BitVec 32) :
    ((BitVec.ofNat 8 (x.toNat / 16777216) : Byte) ++ (BitVec.ofNat 8 (x.toNat / 65536) : Byte) : Half) ++
      ((BitVec.ofNat 8 (x.toNat / 256) : Byte) ++ (BitVec.ofNat 8 x.toNat : Byte) : Half) = x := by
  rw [append_ofNat_bytes, show x.toNat / 16777216 = x.toNat / 65536 / 256 by omega, append_ofNat_bytes]
  apply BitVec.eq_of_toNat_eq
  rw [BitVec.toNat_append, ← Nat.shiftLeft_add_eq_or_of_lt (BitVec.isLt _), Nat.shiftLeft_eq]
  simp only [BitVec.toNat_ofNat]
  omega

theorem bitsToNat_lt (bs : List Bool) : bitsToNat bs < 2 ^ bs.length := by
  induction bs with
  | nil => exact Nat.one_pos
  | cons b bs ih =>
    have hb := b.toNat_lt
    rw [bitsToNat, List.length_cons, Nat.pow_succ]
    omega

/-- The bits of a number given by its bits. -/
theorem testBit_bitsToNat (bs : List Bool) (k : Nat) : (bitsToNat bs).testBit k = bs.getD k false := by
  induction bs generalizing k with
  | nil => simp [bitsToNat]
  | cons b bs ih =>
    cases k with
    | zero => cases b <;> simp [bitsToNat, Nat.testBit_zero]
    | succ k =>
      have hhalf : bitsToNat (b :: bs) / 2 = bitsToNat bs := by
        have hb := b.toNat_lt
        rw [bitsToNat]
        omega
      rw [Nat.testBit_succ, hhalf, ih, List.getD_cons_succ]

/-! ## The record of a notice -/

/-- The five bytes of the held identity are 00h without one (R142). -/
theorem identityBytes_getD (d : Option Identity) :
    (d.map identityBytes).getD (List.replicate 5 0) = identityBytes (d.getD ⟨0, 0, 0⟩) := by
  cases d <;> rfl

/-- The layout of R142, byte by byte. -/
theorem recordBytes_eq (q : QueuedFinding) :
    let f := q.finding
    let d := f.identity.getD ⟨0, 0, 0⟩
    let shift := BitVec.ofInt 16 ((f.shift.map Prod.fst).getD 0)
    recordBytes q =
      [BitVec.ofNat 8 f.slot.val, BitVec.ofNat 8 (kindCode f.kind), BitVec.ofNat 8 ((f.cause.map causeCode).getD 0),
        BitVec.ofNat 8 (classCode q.cls), highByte f.epoch, lowByte f.epoch,
        BitVec.ofNat 8 (f.clock.toNat / 16777216), BitVec.ofNat 8 (f.clock.toNat / 65536),
        BitVec.ofNat 8 (f.clock.toNat / 256), BitVec.ofNat 8 f.clock.toNat, findingFlags f,
        highByte d.node, lowByte d.node, d.port, highByte d.trail, lowByte d.trail,
        BitVec.ofNat 8 ((f.result.map matchCode).getD 0),
        BitVec.ofNat 8 (f.erroredCount / 256), BitVec.ofNat 8 f.erroredCount, BitVec.ofNat 8 f.restartCount,
        BitVec.ofNat 8 (f.average.getD 0 / 65536), BitVec.ofNat 8 (f.average.getD 0 / 256),
        BitVec.ofNat 8 (f.average.getD 0),
        BitVec.ofNat 8 (f.oneWay.getD 0 / 65536), BitVec.ofNat 8 (f.oneWay.getD 0 / 256),
        BitVec.ofNat 8 (f.oneWay.getD 0),
        highByte shift, lowByte shift, BitVec.ofNat 8 q.superseded] := by
  intro f d shift
  rw [recordBytes, identityBytes_getD]
  simp only [optBytes, beBytes_one, beBytes_two, beBytes_three, beBytes_four]
  rfl

section
variable {f : Finding}

/-- The presence and flag bits of R142 in their order; the bits above them are clear. -/
theorem findingFlags_getLsbD (f : Finding) (k : Nat) :
    (findingFlags f).getLsbD k =
      [f.identity.isSome, f.average.isSome, f.shift.isSome, f.baselineSet, (f.shift.map Prod.snd).getD false].getD k
        false := by
  rw [findingFlags, BitVec.getLsbD_ofNat, testBit_bitsToNat]
  by_cases hk : k < 5
  · rw [decide_eq_true (by omega : k < 8), Bool.true_and]
  · rw [List.getD_eq_default _ _ (by simpa using hk), Bool.and_false]

theorem findingFlags_saturated : (findingFlags f).getLsbD 4 = true ↔ ∃ v, f.shift = some (v, true) := by
  rw [findingFlags_getLsbD]
  show (f.shift.map Prod.snd).getD false = true ↔ _
  cases f.shift with
  | none => simp
  | some x => simp [Prod.ext_iff]

theorem findingFlags_high {k : Nat} (h : 5 ≤ k) : (findingFlags f).getLsbD k = false := by
  rw [findingFlags_getLsbD]
  exact List.getD_eq_default _ _ h

end

/-! ## A notice started -/

theorem forwardHolding_false {b : ForwardBuffer} (h : ∀ bs, b ≠ .holding bs) : forwardHolding b = false := by
  cases b with
  | holding bs => exact absurd rfl (h bs)
  | free => rfl
  | sending => rfl

theorem replyHolding_false {b : ReplyBuffer} (h : ∀ bs m, b ≠ .holding bs m) : replyHolding b = false := by
  cases b with
  | holding bs m => exact absurd rfl (h bs m)
  | free => rfl
  | reserved => rfl
  | sending m => rfl

section
variable {s : State} {side : Side} {f : OutFrame} {skip : Nat}

/-- An idle arbiter whose output frame has a position left may start a frame (R160). -/
theorem canStart_of_hasPosition (hidle : s.management.arbiter.get side = none) (hp : HasPosition s side f skip) :
    canStart s side skip = true := by
  obtain ⟨hframe, hcut, hplaced⟩ := hp
  have hleft : skip < outputPositions (s.output.get side) := by
    rw [outputPositions, hframe]
    simp only [positionsLeft, hcut, Option.isSome_none, Bool.false_eq_true, if_false]
    omega
  rw [canStart, hidle, decide_eq_true hleft]
  rfl

/-- A frame started on an output that sends a frame: its first byte stands after the idle positions (R160). -/
theorem startSending_started {u : State} (hu : u.output = s.output) (hm : u.management.arbiter = s.management.arbiter)
    (hframe : (s.output.get side).frame = some f) (source : FrameSource) (bs : List Byte) :
    StartedSending s (startSending u side skip source bs) side f skip source bs := by
  refine ⟨?_, ?_⟩
  · show u.output.set side (placeBytes (u.output.get side) _) = _
    rw [hu, placeBytes, hframe, List.append_assoc]
    rfl
  · show u.management.arbiter.set side _ = _
    rw [hm]

variable {q : QueuedFinding} {queue : List QueuedFinding} {node dest : Half}

/-- The state once the head record has left the queue for a notice: its slot's mirror is cleared and the sequence count
has advanced (R147, R161). -/
def noticeTaken (s : State) (q : QueuedFinding) : State :=
  { setPending s q.finding.slot false with
    report := { s.report with queue := s.report.queue.tail }
    management := { s.management with noticeSequence := s.management.noticeSequence + 1 } }

theorem execNoticeStart_eq (hr : s.resetHeld = false) (hq : s.report.queue = q :: queue)
    (hnode : s.management.identity = some node) (hdest : s.report.settings.destination = some dest)
    (hstart : noticeCanStart s skip = true) :
    exec (.noticeStart skip) s = .next (startSending (noticeTaken s q) s.report.settings.side skip .notice
      (noticeFrame node dest s.management.noticeSequence q)) := by
  have hoffered : offeredNotice s = some (node, dest, q) := by rw [offeredNotice, hq, hnode, hdest]
  show execNoticeStart skip s = _
  rw [execNoticeStart, act_running hr, startNotice, hoffered]
  exact congrArg _ (if_pos hstart)

theorem noticeTaken_slot (j : Slot) : (noticeTaken s q).slots[j] = { s.slots[j] with
    context := { s.slots[j].context with
      findingPending := if j = q.finding.slot then false else s.slots[j].context.findingPending } } := by
  show (setPending s q.finding.slot false).slots[j] = _
  rw [setPending, State.modSlot_slot]
  split <;> rfl

end

/-- Settles O35: the notice may start, and its payload is the table of `recordBytes_eq`, field by field. -/
theorem noticeStartSendsTheHeadRecord : Obligations.NoticeStartSendsTheHeadRecord := by
  intro s skip q queue node dest f hr hq hnode hdest side hidle hforward hreply hp
  have hstart : noticeCanStart s skip = true := by
    rw [noticeCanStart, canStart_of_hasPosition hidle hp, forwardHolding_false hforward, replyHolding_false hreply]
    rfl
  refine ⟨_, execNoticeStart_eq hr hq hnode hdest hstart, startSending_started rfl rfl hp.1 .., ?_,
    noticeTaken_slot, ?_⟩
  · have hreport : { s.report with queue := queue } = { s.report with queue := s.report.queue.tail } := by
      rw [hq, List.tail_cons]
    rw [hreport]
    rfl
  · intro d x wide flag
    have hd : d = _ := recordBytes_eq q
    clear_value d
    subst hd
    have hflag (k : Nat) : flag k = _ := findingFlags_getLsbD x k
    refine ⟨rfl, ?slot, ?kind, ?cause, ?cls, highByte_append_lowByte _, append_ofNat_words _,
      ⟨hflag 0, hflag 1, hflag 2, hflag 3, findingFlags_saturated, fun k => findingFlags_high⟩, fun h => ?absent,
      fun y h => ?identity, ?result, append_ofNat_bytes _, rfl, ?average, ?oneWay, fun h => ?unshifted,
      fun v saturated h => ?shifted, rfl⟩
    case slot => exact Nat.mod_eq_of_lt (Nat.lt_trans x.slot.isLt (by decide))
    case kind =>
      show BitVec.ofNat 8 (kindCode x.kind) = _
      cases x.kind <;> rfl
    case cause =>
      show BitVec.ofNat 8 ((x.cause.map causeCode).getD 0) = _
      rcases x.cause with _ | c
      · rfl
      · cases c <;> rfl
    case cls =>
      show BitVec.ofNat 8 (classCode q.cls) = _
      cases q.cls <;> rfl
    case absent =>
      show identityBytes (x.identity.getD ⟨0, 0, 0⟩) = _
      rw [h]
      rfl
    case identity =>
      have hy : x.identity.getD ⟨0, 0, 0⟩ = y := by rw [h, Option.getD_some]
      exact ⟨(highByte_append_lowByte _).trans (congrArg Identity.node hy), congrArg Identity.port hy,
        (highByte_append_lowByte _).trans (congrArg Identity.trail hy)⟩
    case result =>
      show BitVec.ofNat 8 ((x.result.map matchCode).getD 0) = _
      rcases x.result with _ | m
      · rfl
      · cases m <;> rfl
    case average => exact (beBytes_three _).symm
    case oneWay => exact (beBytes_three _).symm
    case unshifted =>
      refine (highByte_append_lowByte _).trans ?_
      show BitVec.ofInt 16 ((x.shift.map Prod.fst).getD 0) = 0
      rw [h]
      rfl
    case shifted =>
      refine (highByte_append_lowByte _).trans ?_
      show BitVec.ofInt 16 ((x.shift.map Prod.fst).getD 0) = _
      rw [h]
      rfl

end Sys2Proof.Machine
end

section
/-! PROOFS. The clear of detected items (O51). -/

namespace Sys2Proof.Machine

/-! ## The items of a block -/

/-- The state with the items cleared that the selection bytes name, at the blocks where the clear is made (R150,
R180). -/
def itemsCleared (s : State) (p : List Byte) (here : Block → Bool) : State :=
  let kept := fun (b : Block) (selected : Bool) (n : Nat) => if here b && selected then 0 else n
  let seen := clearSeen s.report.seen
    { minor := here .reportUnit && (byteAt p 1)[0], major := here .reportUnit && (byteAt p 1)[1]
      critical := here .reportUnit && (byteAt p 1)[2] }
  { s with
    management := { s.management with
      checkErrors := kept .managementUnit (byteAt p 1)[3] s.management.checkErrors
      commandDiscards := kept .managementUnit (byteAt p 1)[4] s.management.commandDiscards
      forwardDiscards := kept .managementUnit (byteAt p 1)[5] s.management.forwardDiscards }
    probe := { s.probe with
      lost := kept .probeEngine (byteAt p 1)[6] s.probe.lost
      late := kept .probeEngine (byteAt p 1)[7] s.probe.late
      rejected := kept .probeEngine (byteAt p 2)[0] s.probe.rejected }
    report := { s.report with
      seen := seen
      alert := if here .reportUnit then alertLevel seen s.report.settings.alertEnable else s.report.alert } }

/-- No item is cleared where no clear is made. -/
theorem itemsCleared_nowhere (s : State) (p : List Byte) : itemsCleared s p (fun _ => false) = s := by
  simp [itemsCleared, clearSeen]

/-- The clear at a block clears the block's selected items (R150, R180). -/
theorem clearItems_eq (s : State) (p : List Byte) (block : Block) :
    clearItems s p block = itemsCleared s p fun b => decide (block = b) := by
  cases block <;> simp [clearItems, itemsCleared, clearSeen, refreshAlert]

/-! ## The request taken -/

section
variable {side : Side} {block : Block} {r : Request} {before after : List Request}

theorem waitsForClear_iff :
    waitsForClear side block r = true ↔
      r.side = side ∧ r.command = .clearDetected ∧ (block ∈ r.todo ∨ r.todo = []) := by
  simp [waitsForClear, and_assoc]

/-- The first request that passes a test is replaced where it stands. -/
theorem replaceRequest_split {test : Request → Bool} (hbefore : ∀ q ∈ before, test q = false) (hr : test r = true)
    (new : Request) : replaceRequest (before ++ r :: after) test new = before ++ new :: after := by
  induction before with
  | nil => exact if_pos hr
  | cons q before ih =>
    have hq : test q = false := hbefore q List.mem_cons_self
    have hrest : ∀ q ∈ before, test q = false := fun q' h => hbefore q' (List.mem_cons_of_mem q h)
    rw [List.cons_append, replaceRequest, if_neg (ne_true_of_eq_false hq), ih hrest, List.cons_append]

/-- The management unit once a request has been taken for its part at a block: the request waits on for its other
blocks, or is answered (R180). -/
def clearTaken (m : ManagementUnit) (before after : List Request) (r : Request) (left : List Block) : ManagementUnit :=
  if left = [] then placeReply { m with requests := before ++ after } r .done [] false
  else { m with requests := before ++ { r with todo := left } :: after }

section
variable {m : ManagementUnit} {left : List Block}

/-- Taking the request changes the waiting requests and the replies alone. -/
theorem clearTaken_onlyReplies : OnlyReplies m (clearTaken m before after r left) := by
  unfold clearTaken OnlyReplies
  split
  · rw [placeReply_eq]
  · rfl

theorem clearTaken_waiting (h : left ≠ []) :
    clearTaken m before after r left = { m with requests := before ++ { r with todo := left } :: after } := if_neg h

theorem clearTaken_answered (h : left = []) :
    clearTaken m before after r left = placeReply { m with requests := before ++ after } r .done [] false := if_pos h

end

variable {s : State}

/-- The oldest waiting request is taken, and the items are cleared where it waits for the block (R180). -/
theorem serveClear_eq (hq : s.management.requests = before ++ r :: after) (hr : waitsForClear side block r = true)
    (hbefore : ∀ q ∈ before, waitsForClear side block q = false) (hnodup : r.todo.Nodup) :
    let cleared := itemsCleared s r.payload fun b => decide (block = b ∧ b ∈ r.todo)
    serveClear s side block = { cleared with
      management := clearTaken cleared.management before after r (r.todo.filter fun b => b != block) } := by
  have hitems : (if r.todo.contains block then clearItems s r.payload block else s) =
      itemsCleared s r.payload fun b => decide (block = b ∧ b ∈ r.todo) := by
    by_cases hb : block ∈ r.todo
    · rw [if_pos (List.contains_iff_mem.mpr hb), clearItems_eq]
      refine congrArg _ (funext fun b => decide_eq_decide.mpr ?_)
      exact ⟨fun h => ⟨h, h ▸ hb⟩, And.left⟩
    · rw [if_neg (mt List.contains_iff_mem.mp hb)]
      refine (itemsCleared_nowhere s r.payload).symm.trans (congrArg _ (funext fun b => ?_))
      exact (decide_eq_false fun ⟨heq, hmem⟩ => hb (heq ▸ hmem)).symm
  have hleft : r.todo.erase block = r.todo.filter fun b => b != block := hnodup.erase_eq_filter block
  have hfind : (before ++ r :: after).find? (waitsForClear side block) = some r :=
    List.find?_eq_some_iff_append.mpr ⟨hr, before, after, rfl, fun q h => by rw [hbefore q h]; rfl⟩
  have herase : (before ++ r :: after).eraseP (waitsForClear side block) = before ++ after := by
    rw [List.eraseP_append_right _ fun q h => ne_true_of_eq_false (hbefore q h), List.eraseP_cons_of_pos hr]
  intro cleared
  rw [serveClear, hq, hfind]
  dsimp only
  rw [hitems, hleft, herase, replaceRequest_split hbefore hr, clearTaken]
  split <;> rfl

theorem execClearDetected_eq (hr : s.resetHeld = false) :
    exec (.clearDetected side block) s = .next (serveClear s side block) := by
  show execClearDetected side block s = _
  rw [execClearDetected, act_running hr]

end

/-- Settles O51: the oldest request that waits for the block is taken, and what it does there is `itemsCleared` and
`clearTaken`. -/
theorem detectedItemsAreCleared : Obligations.DetectedItemsAreCleared := by
  intro s side block before after r hr hq hside hcommand hblock hnodup hbefore one two left here cleared
  have hwaits : waitsForClear side block r = true := waitsForClear_iff.mpr ⟨hside, hcommand, hblock⟩
  have hfirst : ∀ q ∈ before, waitsForClear side block q = false := by
    intro q hmem
    refine Bool.eq_false_iff.mpr fun h => ?_
    obtain ⟨hs, hc, hw⟩ := waitsForClear_iff.mp h
    obtain ⟨hnot, hsome⟩ := hbefore q hmem hs hc
    exact hw.elim hnot hsome
  refine ⟨_, (execClearDetected_eq hr).trans (congrArg _ (serveClear_eq hq hwaits hfirst hnodup)), rfl, rfl, ?_,
    fun h => ?_, fun h => ?_⟩
  · exact congrArg (fun m => { itemsCleared s r.payload here with management := m }) clearTaken_onlyReplies
  · dsimp only
    rw [clearTaken_waiting h]
    exact ⟨rfl, rfl⟩
  · dsimp only
    rw [clearTaken_answered h]
    refine ⟨by rw [placeReply_eq], fun hl => ?_, fun hl => ?_⟩
    · rw [placeReply_live hl, hside]
      rfl
    · rw [placeReply_dead hl]
      rfl

end Sys2Proof.Machine
end

section
/-! PROOFS. The management buffers and the arbiters: what leaves them alone, one lemma per operation (O60). -/

namespace Sys2Proof.Machine

/-! ## What leaves the management unit alone -/

section
variable {s t : State} {p : Prop} [Decidable p]

theorem management_when (h : t.management = s.management) : (if p then t else s).management = s.management := by
  rw [apply_ite State.management, h, ite_self]

theorem management_unless (h : t.management = s.management) : (if p then s else t).management = s.management := by
  rw [apply_ite State.management, h, ite_self]

end

theorem rotationStep_management (s : State) : (rotationStep s).management = s.management := by
  unfold rotationStep
  split
  · rfl
  · split <;> rfl

theorem probeBoundary_management (s : State) : (probeBoundary s).management = s.management := by
  unfold probeBoundary countInterval
  split
  · exact rotationStep_management _
  · rfl

theorem engineBoundary_management (s : State) : (engineBoundary s).management = s.management :=
  management_when (probeBoundary_management s)

theorem contextBoundary_management (s : State) (i : Slot) : (contextBoundary s i).management = s.management :=
  management_when rfl

theorem boundaryAt_management (target : BoundaryAt) (s : State) : (boundaryAt target s).management = s.management := by
  cases target with
  | timebase => exact management_unless rfl
  | context i => exact contextBoundary_management s i
  | probeEngine => exact engineBoundary_management s

theorem matchedEcho_management (s : State) (i : Slot) (launch : Stamp) (h : EchoHandoff) :
    (matchedEcho s i launch h).management = s.management := by
  unfold matchedEcho
  dsimp only
  split
  · rfl
  · split <;> rfl

theorem takeEcho_management (s : State) (i : Slot) (h : EchoHandoff) : (takeEcho s i h).management = s.management := by
  unfold takeEcho
  dsimp only
  split
  · rfl
  · rw [State.modSlot_management]
    split
    · exact matchedEcho_management ..
    · exact management_unless rfl

theorem takeHandoff_management (s : State) (i : Slot) (h : EchoHandoff) :
    (takeHandoff s i h).management = s.management :=
  management_when (takeEcho_management s i h)

theorem takeFinding_management (s : State) (f : Finding) : (takeFinding s f).management = s.management := by
  unfold takeFinding
  dsimp only
  split <;> rfl

theorem startCycle_management (s : State) : (startCycle s).management = s.management := by
  unfold startCycle
  split
  · rfl
  · split <;> rfl

/-! ### Answers -/

/-- An owner that answers its requests without touching the management unit. -/
def KeepsManagement (answer : State → List Byte → Answer) : Prop := ∀ s p, (answer s p).state.management = s.management

theorem answerOpenWindow_keeps : KeepsManagement answerOpenWindow := by
  intro s p
  rw [answerOpenWindow_eq, answerWindow]
  split <;> rfl

theorem answerCloseWindow_keeps : KeepsManagement answerCloseWindow := by
  intro s p
  rw [answerCloseWindow_eq, answerWindow]
  split <;> rfl

theorem answerSetSlotRoles_keeps : KeepsManagement answerSetSlotRoles := by
  intro s p
  unfold answerSetSlotRoles
  repeat' split
  all_goals rfl

theorem answerLoadMapEntry_keeps : KeepsManagement answerLoadMapEntry := by
  intro s p
  unfold answerLoadMapEntry
  repeat' split
  all_goals rfl

theorem answerClearMapEntry_keeps : KeepsManagement answerClearMapEntry := by
  intro s p
  unfold answerClearMapEntry
  repeat' split
  all_goals rfl

theorem answerLinkRoute_keeps : KeepsManagement answerLinkRoute := by
  intro s p
  unfold answerLinkRoute
  dsimp only
  repeat' split
  all_goals rfl

theorem answerSetProfile_keeps : KeepsManagement answerSetProfile := by
  intro s p
  unfold answerSetProfile
  split <;> rfl

theorem answerSetReporting_keeps : KeepsManagement answerSetReporting := by
  intro s p
  unfold answerSetReporting
  split <;> rfl

theorem answerReverify_keeps : KeepsManagement answerReverify := by
  intro s p
  unfold answerReverify
  repeat' split
  all_goals rfl

theorem answerQueryTrail_keeps : KeepsManagement answerQueryTrail := by
  intro s p
  unfold answerQueryTrail
  split <;> rfl

theorem answerQueryTag_keeps : KeepsManagement answerQueryTag := by
  intro s p
  unfold answerQueryTag
  repeat' split
  all_goals rfl

theorem answerQueryRoute_keeps : KeepsManagement answerQueryRoute := by
  intro s p
  unfold answerQueryRoute
  split <;> rfl

/-! ## What leaves the buffers and the arbiters alone -/

/-- What the order of the buffers is about: both kinds of buffer, what each arbiter's frame came from, and the waiting
requests (R157, R158, R160). -/
def bufferView (m : ManagementUnit) :
    Sides ForwardBuffer × Sides ReplyBuffer × (Side → Option FrameSource) × List Request :=
  (m.forward, m.reply, fun side => (m.arbiter.get side).map Sending.source, m.requests)

/-- An arbiter that reaches positions goes on with the frame that it was sending, so nothing of the view differs
(R160). -/
theorem bufferView_reached (m : ManagementUnit) (output : Side) (n : Nat) :
    bufferView { m with arbiter := m.arbiter.set output (arbiterAfter (m.arbiter.get output) n) } = bufferView m := by
  have hsource : ∀ x, ((m.arbiter.set output (arbiterAfter (m.arbiter.get output) n)).get x).map Sending.source =
      (m.arbiter.get x).map Sending.source := by
    intro x
    rcases eq_or_ne x output with rfl | hx
    · rw [Sides.get_set_same, arbiterAfter, Option.map_map]
      rfl
    · rw [Sides.get_set_other _ hx]
  exact congrArg (fun sources => (m.forward, m.reply, sources, m.requests)) (funext hsource)

theorem putFrame_bufferView (s : State) (output : Side) (timing : Timing) (sent : Nat) (f : OutFrame) :
    bufferView (putFrame s output timing sent f).management = bufferView s.management :=
  bufferView_reached ..

theorem leaveFollow_bufferView (s : State) (output : Side) (sent : Nat) :
    bufferView (leaveFollow s output sent).management = bufferView s.management := by
  unfold leaveFollow
  split
  · exact bufferView_reached ..
  · rfl

theorem startLineFrame_bufferView (s : State) (timing : Timing) (sent : Nat) (f : OutFrame) :
    bufferView (startLineFrame s timing sent f).management = bufferView s.management := by
  unfold startLineFrame
  dsimp only
  split
  · exact putFrame_bufferView ..
  · split <;> exact putFrame_bufferView ..

theorem startLocalFrame_bufferView (s : State) (output : Side) :
    bufferView (startLocalFrame s output).management = bufferView s.management := by
  cases output with
  | line => exact startLineFrame_bufferView ..
  | drop => exact putFrame_bufferView ..

theorem startOutputs_bufferView (s : State) : bufferView (startOutputs s).management = bufferView s.management := by
  rw [startOutputs, startCycle_management, startLocalFrame_bufferView, startLocalFrame_bufferView]

theorem lineFrame_bufferView (s : State) (f : Frame) (sent : Nat) :
    bufferView (lineFrame s f sent).management = bufferView s.management := by
  unfold lineFrame
  dsimp only
  split
  case h_4 => exact leaveFollow_bufferView ..
  all_goals exact putFrame_bufferView ..

theorem deliverDrop_bufferView (s : State) (p : Phase) (f : Frame) (sent : Nat) :
    bufferView (deliverDrop s p f sent).management = bufferView s.management := by
  unfold deliverDrop
  dsimp only
  rw [startLineFrame_bufferView]
  split <;> rfl

theorem loseDrop_bufferView (s : State) (sent : Nat) :
    bufferView (loseDrop s sent).management = bufferView s.management := by
  unfold loseDrop
  dsimp only
  split
  · exact leaveFollow_bufferView ..
  · rfl

theorem dropFrame_bufferView (s : State) (f : Frame) (sent : Nat) :
    bufferView (dropFrame s f sent).management = bufferView s.management := by
  unfold dropFrame
  dsimp only
  split
  case h_4 => exact loseDrop_bufferView ..
  all_goals exact deliverDrop_bufferView ..

theorem lockedFrame_bufferView (s : State) (side : Side) (f : Frame) (sent : Nat) :
    bufferView (lockedFrame s side f sent).management = bufferView s.management := by
  cases side with
  | line => exact lineFrame_bufferView ..
  | drop => exact dropFrame_bufferView ..

end Sys2Proof.Machine
end

section
/-! PROOFS. A completed frame is judged (O37): its check, the address filter, the buffer that it reaches and the
interpreter, one equation per case. -/

namespace Sys2Proof.Machine

section
variable {m : ManagementUnit} {side : Side} {bs : List Byte}

/-! ## The check and the address filter -/

theorem frameGood_iff :
    frameGood bs = true ↔
      checkOf ((bs.drop 1).take (7 + (byteAt bs 7).toNat)) = halfAt bs (8 + (byteAt bs 7).toNat) := beq_iff_eq

theorem judgeFrame_bad (h : ¬ frameGood bs = true) :
    judgeFrame m side bs = { m with checkErrors := satInc Config.countMax m.checkErrors } := if_neg h

theorem judgeFrame_good (h : frameGood bs = true) : judgeFrame m side bs = filterFrame m side bs := if_pos h

/-- The rows of R156 that obey a frame: a command to the local address on the drop side, or to the node identity. -/
def IsObeyed (m : ManagementUnit) (side : Side) (bs : List Byte) : Prop :=
  byteAt bs 5 = 0x01 ∧
    (halfAt bs 1 = 65535 ∧ side = .drop ∨ halfAt bs 1 ≠ 65535 ∧ m.identity = some (halfAt bs 1))

/-- The row of R156 that forwards a frame: its destination is neither the local address nor the node identity. -/
def IsForwarded (m : ManagementUnit) (bs : List Byte) : Prop := halfAt bs 1 ≠ 65535 ∧ m.identity ≠ some (halfAt bs 1)

theorem treatmentOf_local {identity : Option Half} {dest : Half} {kind : Byte} (h : dest = 65535) :
    treatmentOf identity side dest kind = if side = .drop ∧ kind = 0x01 then .obeyed else .discarded := if_pos h

theorem treatmentOf_own {identity : Option Half} {dest : Half} {kind : Byte} (h : dest ≠ 65535)
    (hi : identity = some dest) :
    treatmentOf identity side dest kind = if kind = 0x01 then .obeyed else .discarded := by
  rw [treatmentOf, if_neg h, if_pos hi]
  rfl

theorem treatmentOf_foreign {identity : Option Half} {dest : Half} {kind : Byte} (h : dest ≠ 65535)
    (hi : identity ≠ some dest) : treatmentOf identity side dest kind = .forwarded := by
  rw [treatmentOf, if_neg h, if_neg hi]

theorem filterFrame_obeyed (h : IsObeyed m side bs) : filterFrame m side bs = obeyFrame m side bs := by
  have ht : treatmentOf m.identity side (halfAt bs 1) (byteAt bs 5) = .obeyed := by
    obtain ⟨hk, ⟨hd, hs⟩ | ⟨hd, hi⟩⟩ := h
    · rw [treatmentOf_local hd, if_pos ⟨hs, hk⟩]
    · rw [treatmentOf_own hd hi, if_pos hk]
  rw [filterFrame, ht]

theorem filterFrame_forwarded (h : IsForwarded m bs) :
    filterFrame m side bs = forwardFrame m (opposite side) bs := by
  rw [filterFrame, treatmentOf_foreign h.1 h.2]

theorem filterFrame_discarded (ho : ¬ IsObeyed m side bs) (hf : ¬ IsForwarded m bs) : filterFrame m side bs = m := by
  have ht : treatmentOf m.identity side (halfAt bs 1) (byteAt bs 5) = .discarded := by
    by_cases hd : halfAt bs 1 = 65535
    · rw [treatmentOf_local hd, if_neg fun h => ho ⟨h.2, .inl ⟨hd, h.1⟩⟩]
    · have hi : m.identity = some (halfAt bs 1) := not_not.mp fun h => hf ⟨hd, h⟩
      rw [treatmentOf_own hd hi, if_neg fun h => ho ⟨h, .inr ⟨hd, hi⟩⟩]
  rw [filterFrame, ht]

/-! ## The buffers -/

theorem forwardFrame_free {output : Side} (h : m.forward.get output = .free) :
    forwardFrame m output bs = { m with forward := m.forward.set output (.holding bs) } := by
  rw [forwardFrame, h]

theorem forwardFrame_busy {output : Side} (h : m.forward.get output ≠ .free) :
    forwardFrame m output bs = { m with forwardDiscards := satInc Config.countMax m.forwardDiscards } := by
  unfold forwardFrame
  split
  case h_1 hfree => exact absurd hfree h
  all_goals rfl

theorem obeyFrame_free (h : m.reply.get side = .free) : obeyFrame m side bs = interpret m side bs := by
  rw [obeyFrame, h]

theorem obeyFrame_busy (h : m.reply.get side ≠ .free) :
    obeyFrame m side bs = { m with commandDiscards := satInc Config.countMax m.commandDiscards } := by
  unfold obeyFrame
  split
  case h_1 hfree => exact absurd hfree h
  all_goals rfl

/-! ## The interpreter -/

theorem interpret_empty (h : framePayload bs = []) : interpret m side bs = answerAtOnce m side bs .malformed := by
  rw [interpret, h]
  rfl

theorem interpret_unknown (h : framePayload bs ≠ []) (hc : commandOf (byteAt (framePayload bs) 0) = none) :
    interpret m side bs = answerAtOnce m side bs .unknown := by
  rw [interpret, if_neg (mt List.length_eq_zero_iff.mp h), hc]

theorem interpret_known {c : Command} (h : framePayload bs ≠ [])
    (hc : commandOf (byteAt (framePayload bs) 0) = some c) :
    interpret m side bs =
      if lengthRight c (framePayload bs) then
        { m with reply := m.reply.set side .reserved, requests := m.requests ++ [requestOf side c bs] }
      else answerAtOnce m side bs .malformed := by
  rw [interpret, if_neg (mt List.length_eq_zero_iff.mp h), hc]

end

/-! ## MANAGEMENT_FRAME -/

/-- The management unit once the oldest completed frame of a side has been taken from its channel receiver (R153). -/
def frameTaken (m : ManagementUnit) (side : Side) (rest : List (List Byte)) : ManagementUnit :=
  { m with channel := m.channel.set side { m.channel.get side with completed := rest } }

theorem execManagementFrame_eq {s : State} {side : Side} {bs : List Byte} {rest : List (List Byte)}
    (hr : s.resetHeld = false) (hc : (s.management.channel.get side).completed = bs :: rest) :
    exec (.managementFrame side) s =
      .next { s with management := judgeFrame (frameTaken s.management side rest) side bs } := by
  show execManagementFrame side s = _
  rw [execManagementFrame, act_running hr, hc]
  rfl

/-- Settles O37: the rows of R156 by `filterFrame`, the buffers by `forwardFrame` and `obeyFrame`, the codes and lengths
by `interpret`. -/
theorem managementFrameIsFiltered : Obligations.ManagementFrameIsFiltered := by
  intro s side bs rest hr hc m inc dest command payload good obeyed forwarded answered
  have hgood : frameGood bs = true ↔ good := frameGood_iff
  have hfilter (h : good) : judgeFrame m side bs = filterFrame m side bs := judgeFrame_good (hgood.mpr h)
  refine ⟨_, execManagementFrame_eq hr hc, fun h => judgeFrame_bad (mt hgood.mp h),
    fun h ho hf => (hfilter h).trans (filterFrame_discarded ho hf), fun h hf => ?_, fun h ho => ?_⟩
  · have hforward : judgeFrame m side bs = forwardFrame m (opposite side) bs :=
      (hfilter h).trans (filterFrame_forwarded hf)
    exact ⟨fun hfree => hforward.trans (forwardFrame_free hfree), fun hbusy => hforward.trans (forwardFrame_busy hbusy)⟩
  · have hobey : judgeFrame m side bs = obeyFrame m side bs := (hfilter h).trans (filterFrame_obeyed ho)
    have hread (hfree : m.reply.get side = .free) : judgeFrame m side bs = interpret m side bs :=
      hobey.trans (obeyFrame_free hfree)
    refine ⟨fun hbusy => hobey.trans (obeyFrame_busy hbusy), fun hfree hp => (hread hfree).trans (interpret_empty hp),
      fun hfree hp hcode => (hread hfree).trans (interpret_unknown hp hcode), fun c hfree hp hcode => ?_⟩
    have hknown := (hread hfree).trans (interpret_known hp hcode)
    exact ⟨fun hl => hknown.trans (if_neg (ne_true_of_eq_false hl)), fun hl => hknown.trans (if_pos hl)⟩

end Sys2Proof.Machine
end

section
/-! PROOFS. The arbiters start and end their frames (O39, O40). -/

namespace Sys2Proof.Machine

section
variable {s : State} {side : Side} {skip : Nat}

/-! ## A frame started from a buffer -/

theorem startBuffered_forward {bs : List Byte} (h : s.management.forward.get side = .holding bs) :
    startBuffered s side skip =
      startSending { s with management := { s.management with forward := s.management.forward.set side .sending } } side
        skip .forward bs := by
  rw [startBuffered, h]

theorem startBuffered_reply {bs : List Byte} {b : Bool} (hf : ∀ x, s.management.forward.get side ≠ .holding x)
    (h : s.management.reply.get side = .holding bs b) :
    startBuffered s side skip =
      startSending { s with management := { s.management with reply := s.management.reply.set side (.sending b) } } side
        skip .reply bs := by
  unfold startBuffered
  split
  case h_1 x hx => exact absurd hx (hf x)
  case h_2 hx _ =>
    cases h.symm.trans hx
    rfl
  case h_3 hx => exact (hx _ _ h).elim

theorem startBuffered_nothing (hf : ∀ x, s.management.forward.get side ≠ .holding x)
    (h : ∀ x b, s.management.reply.get side ≠ .holding x b) : startBuffered s side skip = s := by
  unfold startBuffered
  split
  case h_1 x hx => exact absurd hx (hf x)
  case h_2 x b hx _ => exact absurd hx (h x b)
  case h_3 => rfl

theorem execArbiterFrameStart_eq (hr : s.resetHeld = false) (h : canStart s side skip = true) :
    exec (.arbiterFrameStart side skip) s = .next (startBuffered s side skip) := by
  show execArbiterFrameStart side skip s = _
  rw [execArbiterFrameStart, act_running hr, if_pos h]

end

/-- Settles O39: `startBuffered` takes the forward frame that is HOLDING, else the reply. -/
theorem arbiterStartsTheWaitingFrame : Obligations.ArbiterStartsTheWaitingFrame := by
  intro s side skip f hr hidle hp
  refine ⟨_, execArbiterFrameStart_eq hr (canStart_of_hasPosition hidle hp), fun bs h => ?_, fun bs b hf h => ?_,
    startBuffered_nothing⟩
  · rw [startBuffered_forward h]
    exact ⟨startSending_started rfl rfl hp.1 .., rfl⟩
  · rw [startBuffered_reply hf h]
    exact ⟨startSending_started rfl rfl hp.1 .., rfl⟩

section
variable {s : State} {side : Side} {a : Sending}

/-! ## A frame ended -/

theorem endingFrame_arbiter (h : endingFrame s side = some a) : s.management.arbiter.get side = some a := by
  unfold endingFrame at h
  split at h
  · cases h
  · next x hx =>
    split at h
    · rw [hx, h]
    · cases h

/-- The buffer that the ended frame came from is FREE (R157, R158). -/
def sourceFreed (m : ManagementUnit) (side : Side) (source : FrameSource) : ManagementUnit :=
  { m with
    forward := if source = .forward then m.forward.set side .free else m.forward
    reply := if source = .reply then m.reply.set side .free else m.reply }

/-- The end of a frame that is not a RESTART reply places the rest of it, makes the arbiter idle and frees its buffer
(R157, R158, R160). -/
theorem endSending_eq (h : endingFrame s side = some a)
    (hn : a.source = .reply → s.management.reply.get side ≠ .sending true) :
    endSending s side = { s with
      output := s.output.set side (placeBytes (s.output.get side) a.rest)
      management :=
        sourceFreed { s.management with arbiter := s.management.arbiter.set side none } side a.source } := by
  unfold endSending
  rw [h]
  dsimp only
  rw [placeLast_eq (endingFrame_arbiter h)]
  obtain ⟨source, rest⟩ := a
  cases source with
  | notice => rfl
  | forward => rfl
  | reply => exact if_neg (hn rfl)

/-- The last byte of a RESTART reply is left to RESTART_TAKES_EFFECT (R163). -/
theorem endSending_restart (h : endingFrame s side = some a) (hs : a.source = .reply)
    (hn : s.management.reply.get side = .sending true) : endSending s side = s := by
  unfold endSending
  rw [h]
  dsimp only
  rw [hs]
  exact if_pos hn

theorem execArbiterFrameEnd_eq (hr : s.resetHeld = false) :
    exec (.arbiterFrameEnd side) s = .next (endSending s side) := by
  show execArbiterFrameEnd side s = _
  rw [execArbiterFrameEnd, act_running hr]

/-! ## Bytes placed -/

@[simp] theorem Sides.set_get_self {α : Type} (p : Sides α) (side : Side) : p.set side (p.get side) = p := by
  cases side <;> rfl

theorem placeBytes_nil (o : Output) : placeBytes o [] = o := by
  unfold placeBytes
  simp

theorem placeBytes_none {o : Output} (h : o.frame = none) (bs : List Byte) : placeBytes o bs = o := by
  rw [placeBytes, h, Option.map_none, ← h]

theorem placeBytes_some {o : Output} {f : OutFrame} (h : o.frame = some f) (bs : List Byte) :
    placeBytes o bs = { o with frame := some { f with placed := f.placed ++ bs } } := by
  rw [placeBytes, h, Option.map_some]

end

/-- Settles O40: the frame that ends is `endingFrame_of_fits`, and what its end does `endSending_eq`. -/
theorem arbiterEndsItsFrame : Obligations.ArbiterEndsItsFrame := by
  intro s side source rest hr ha hn hfits
  have hend := endSending_eq (endingFrame_of_fits ha hfits) hn
  refine ⟨_, execArbiterFrameEnd_eq hr, ?_⟩
  rw [hend]
  refine ⟨fun h => ⟨?_, Sides.get_set_same ..⟩, fun f hf => ⟨?_, Sides.get_set_same ..⟩, ?_⟩
  · dsimp only
    rw [h, placeBytes_nil, Sides.set_get_self]
  · dsimp only
    rw [Sides.get_set_same, placeBytes_some hf]
  · simp only [sourceFreed, Sides.get_set_same]

end Sys2Proof.Machine
end

section
/-! PROOFS. What acts on the management buffers and the arbiters, and the step invariant (O60). -/

namespace Sys2Proof.Machine

/-! ## One side in order -/

/-- How many requests of a side wait whose outcome will enter its reply buffer (R158, R182). -/
def liveCount (rs : List Request) (side : Side) : Nat := (rs.filter fun r => r.side == side && r.live).length

/-- The buffers of a side stand with what its arbiter is sending and with its waiting requests (R157, R158, R160). -/
def SideStands (forward : ForwardBuffer) (reply : ReplyBuffer) (source : Option FrameSource) (live : Nat) : Prop :=
  (forward = .sending ↔ source = some .forward) ∧ ((∃ b, reply = .sending b) ↔ source = some .reply) ∧
    live = if reply = .reserved then 1 else 0

section
variable {s t : State}

theorem sending_iff (a : Option Sending) (x : FrameSource) :
    (∃ rest, a = some { source := x, rest := rest }) ↔ a.map Sending.source = some x := by
  cases a with
  | none => simp
  | some a =>
    obtain ⟨source, rest⟩ := a
    simp

theorem buffersFollowArbiters_iff :
    BuffersFollowArbiters s ↔ ∀ side, SideStands (s.management.forward.get side) (s.management.reply.get side)
      ((s.management.arbiter.get side).map Sending.source) (liveCount s.management.requests side) := by
  unfold BuffersFollowArbiters SideStands
  simp only [sending_iff]
  rfl

theorem BuffersFollowArbiters.of_view (hs : BuffersFollowArbiters s)
    (h : bufferView t.management = bufferView s.management) : BuffersFollowArbiters t := by
  obtain ⟨hforward, hreply, hsources, hrequests⟩ : _ ∧ _ ∧ _ ∧ _ := by simpa only [bufferView, Prod.ext_iff] using h
  rw [buffersFollowArbiters_iff] at *
  intro side
  rw [hforward, hreply, hrequests, congrFun hsources side]
  exact hs side

theorem BuffersFollowArbiters.of_management (hs : BuffersFollowArbiters s) (h : t.management = s.management) :
    BuffersFollowArbiters t := hs.of_view (congrArg bufferView h)

/-- A change at one side alone, where the buffers stand with the arbiter afterwards. -/
theorem BuffersFollowArbiters.of_side (hs : BuffersFollowArbiters s) {side : Side} {forward : ForwardBuffer}
    {reply : ReplyBuffer} {a : Option Sending} (hf : t.management.forward = s.management.forward.set side forward)
    (hr : t.management.reply = s.management.reply.set side reply)
    (ha : t.management.arbiter = s.management.arbiter.set side a)
    (hq : ∀ x, x ≠ side → liveCount t.management.requests x = liveCount s.management.requests x)
    (h : SideStands forward reply (a.map Sending.source) (liveCount t.management.requests side)) :
    BuffersFollowArbiters t := by
  rw [buffersFollowArbiters_iff] at *
  intro x
  rw [hf, hr, ha]
  rcases eq_or_ne x side with rfl | hx
  · simpa only [Sides.get_set_same] using h
  · simpa only [Sides.get_set_other _ hx, hq x hx] using hs x

end

/-! ## A frame judged -/

/-- What judging a frame can do: a count, a frame to forward, a reply of the interpreter, or a request sent to its owner
(R154, R156, R157, R158). -/
theorem judgeFrame_cases (m : ManagementUnit) (side : Side) (bs : List Byte) :
    (∃ errors commands forwards, judgeFrame m side bs =
      { m with checkErrors := errors, commandDiscards := commands, forwardDiscards := forwards }) ∨
    (m.forward.get (opposite side) = .free ∧
      judgeFrame m side bs = { m with forward := m.forward.set (opposite side) (.holding bs) }) ∨
    (m.reply.get side = .free ∧
      ∃ frame, judgeFrame m side bs = { m with reply := m.reply.set side (.holding frame false) }) ∨
    (m.reply.get side = .free ∧ ∃ c, judgeFrame m side bs =
      { m with reply := m.reply.set side .reserved, requests := m.requests ++ [requestOf side c bs] }) := by
  by_cases hgood : frameGood bs = true
  · rw [judgeFrame_good hgood]
    by_cases hobeyed : IsObeyed m side bs
    · rw [filterFrame_obeyed hobeyed]
      by_cases hfree : m.reply.get side = .free
      · rw [obeyFrame_free hfree]
        refine .inr (.inr ?_)
        by_cases hp : framePayload bs = []
        · exact .inl ⟨hfree, _, interpret_empty hp⟩
        · cases hc : commandOf (byteAt (framePayload bs) 0) with
          | none => exact .inl ⟨hfree, _, interpret_unknown hp hc⟩
          | some c =>
            rw [interpret_known hp hc]
            split
            · exact .inr ⟨hfree, c, rfl⟩
            · exact .inl ⟨hfree, _, rfl⟩
      · exact .inl ⟨_, _, _, obeyFrame_busy hfree⟩
    · by_cases hforwarded : IsForwarded m bs
      · rw [filterFrame_forwarded hforwarded]
        by_cases hfree : m.forward.get (opposite side) = .free
        · exact .inr (.inl ⟨hfree, forwardFrame_free hfree⟩)
        · exact .inl ⟨_, _, _, forwardFrame_busy hfree⟩
      · exact .inl ⟨_, _, _, filterFrame_discarded hobeyed hforwarded⟩
  · exact .inl ⟨_, _, _, judgeFrame_bad hgood⟩

theorem liveCount_append (rs qs : List Request) (side : Side) :
    liveCount (rs ++ qs) side = liveCount rs side + liveCount qs side := by
  rw [liveCount, List.filter_append, List.length_append]
  rfl

theorem liveCount_singleton (r : Request) (side : Side) :
    liveCount [r] side = if r.side = side ∧ r.live = true then 1 else 0 := by
  by_cases h : r.side = side ∧ r.live = true <;> simp [liveCount, h]

/-- Judging a frame keeps the buffers with the arbiters: it fills a FREE buffer, and a request that it sends goes with a
RESERVED one (R157, R158). -/
theorem judgeFrame_follows {s t : State} (hs : BuffersFollowArbiters s) (side : Side) (bs : List Byte)
    (ht : t.management = judgeFrame s.management side bs) : BuffersFollowArbiters t := by
  have hstands := buffersFollowArbiters_iff.mp hs
  rcases judgeFrame_cases s.management side bs with ⟨_, _, _, h⟩ | ⟨hfree, h⟩ | ⟨hfree, _, h⟩ | ⟨hfree, c, h⟩
  all_goals rw [h] at ht
  · exact hs.of_view (by rw [ht]; rfl)
  · obtain ⟨hforward, hreply, hlive⟩ := hstands (opposite side)
    rw [hfree] at hforward
    refine hs.of_side (side := opposite side) (congrArg _ ht) (by rw [ht, Sides.set_get_self])
      (by rw [ht, Sides.set_get_self]) (fun _ _ => by rw [ht]) ⟨?_, hreply, ?_⟩
    · exact (iff_of_false nofun nofun).trans hforward
    · rwa [ht]
  · obtain ⟨hforward, hreply, hlive⟩ := hstands side
    rw [hfree] at hreply hlive
    refine hs.of_side (side := side) (by rw [ht, Sides.set_get_self]) (congrArg _ ht)
      (by rw [ht, Sides.set_get_self]) (fun _ _ => by rw [ht]) ⟨hforward, ?_, ?_⟩
    · exact (iff_of_false nofun nofun).trans hreply
    · rw [ht]
      exact hlive
  · obtain ⟨hforward, hreply, hlive⟩ := hstands side
    rw [hfree] at hreply hlive
    refine hs.of_side (side := side) (by rw [ht, Sides.set_get_self]) (congrArg _ ht)
      (by rw [ht, Sides.set_get_self]) (fun x hx => ?_) ⟨hforward, ?_, ?_⟩
    · rw [ht, liveCount_append, liveCount_singleton, if_neg fun h => hx h.1.symm, Nat.add_zero]
    · exact (iff_of_false nofun nofun).trans hreply
    · rw [ht, liveCount_append, liveCount_singleton, if_pos ⟨rfl, rfl⟩, hlive]
      rfl

/-! ## A request answered -/

/-- The first request that passes a test is left out. -/
theorem eraseP_split {test : Request → Bool} {before after : List Request} {r : Request}
    (hbefore : ∀ q ∈ before, test q = false) (hr : test r = true) :
    (before ++ r :: after).eraseP test = before ++ after := by
  rw [List.eraseP_append_right _ fun q h => ne_true_of_eq_false (hbefore q h), List.eraseP_cons_of_pos hr]

/-- The requests without the first that passes a test: the outcome of that one no longer waits. -/
theorem liveCount_eraseP {rs : List Request} {p : Request → Bool} {r : Request} (h : rs.find? p = some r)
    (side : Side) : liveCount rs side = liveCount (rs.eraseP p) side + liveCount [r] side := by
  obtain ⟨hp, before, after, rfl, hbefore⟩ := List.find?_eq_some_iff_append.mp h
  rw [eraseP_split (fun q hq => by simpa using hbefore q hq) hp, ← List.singleton_append]
  simp only [liveCount_append]
  omega

theorem liveCount_replaceRequest {rs : List Request} {p : Request → Bool} {r new : Request} (h : rs.find? p = some r)
    (hside : new.side = r.side) (hlive : new.live = r.live) (side : Side) :
    liveCount (replaceRequest rs p new) side = liveCount rs side := by
  obtain ⟨hp, before, after, rfl, hbefore⟩ := List.find?_eq_some_iff_append.mp h
  rw [replaceRequest_split (fun q hq => by simpa using hbefore q hq) hp, ← List.singleton_append,
    ← List.singleton_append (x := r)]
  simp only [liveCount_append, liveCount_singleton, hside, hlive]

/-- A request that is answered leaves the waiting ones, and its outcome, unless discarded, enters the buffer that was
RESERVED for it (R158, R182). -/
theorem BuffersFollowArbiters.answered {s t : State} (hs : BuffersFollowArbiters s) {p : Request → Bool} {r : Request}
    (h : s.management.requests.find? p = some r) {outcome : ReplyOutcome} {data : List Byte} {b : Bool}
    (ht : t.management =
      placeReply { s.management with requests := s.management.requests.eraseP p } r outcome data b) :
    BuffersFollowArbiters t := by
  have hcount := liveCount_eraseP h
  obtain ⟨hforward, hreply, hlive⟩ := buffersFollowArbiters_iff.mp hs r.side
  cases hl : r.live with
  | false =>
    rw [placeReply_dead hl] at ht
    have hkept (x : Side) : liveCount t.management.requests x = liveCount s.management.requests x := by
      rw [ht, hcount x, liveCount_singleton, if_neg fun h => ne_true_of_eq_false hl h.2, Nat.add_zero]
    exact hs.of_side (side := r.side) (by rw [ht, Sides.set_get_self]) (by rw [ht, Sides.set_get_self])
      (by rw [ht, Sides.set_get_self]) (fun x _ => hkept x) ⟨hforward, hreply, (hkept _).trans hlive⟩
  | true =>
    have hone := hcount r.side
    rw [liveCount_singleton, if_pos ⟨rfl, hl⟩, hlive] at hone
    have hreserved : s.management.reply.get r.side = .reserved := by
      by_contra hn
      rw [if_neg hn] at hone
      omega
    rw [hreserved] at hreply hone
    have hrequests : t.management.requests = s.management.requests.eraseP p := by
      rw [ht, placeReply_eq]
    refine hs.of_side (side := r.side) (reply := .holding _ b) (by rw [ht, placeReply_eq, Sides.set_get_self])
      (by rw [ht, placeReply_live hl]) (by rw [ht, placeReply_eq, Sides.set_get_self]) (fun x hx => ?_)
      ⟨hforward, (iff_of_false nofun nofun).trans hreply, ?_⟩
    · rw [hrequests, hcount x, liveCount_singleton, if_neg fun h => hx h.1.symm, Nat.add_zero]
    · rw [hrequests]
      exact (Nat.succ.inj hone).symm

/-- A request is taken in order when its owner's answer leaves the buffers and the arbiters alone (R158). -/
theorem serve_follows {s : State} (hs : BuffersFollowArbiters s) {answer : State → List Byte → Answer}
    (h : ∀ p, bufferView (answer s p).state.management = bufferView s.management) {side : Side} {c : Command} :
    BuffersFollowArbiters (serve s side c answer) := by
  cases hf : findRequest s side c with
  | none => rwa [serve_none hf]
  | some r =>
    have hrequests : (answer s r.payload).state.management.requests = s.management.requests := by
      simpa only [bufferView] using congrArg (fun v => v.2.2.2) (h r.payload)
    refine (hs.of_view (h r.payload)).answered (p := fun r => r.side == side && r.command == c) (r := r) ?_ ?_
      (outcome := (answer s r.payload).outcome) (data := (answer s r.payload).data) (b := c == .restart)
    · rw [hrequests]
      exact hf
    · unfold serve
      rw [hf]
      rfl

theorem serve_keeps_follows {s : State} (hs : BuffersFollowArbiters s) {answer : State → List Byte → Answer}
    (h : KeepsManagement answer) {side : Side} {c : Command} : BuffersFollowArbiters (serve s side c answer) :=
  serve_follows hs (fun p => congrArg bufferView (h s p))

theorem answerSetNodeIdentity_bufferView (s : State) (p : List Byte) :
    bufferView (answerSetNodeIdentity s p).state.management = bufferView s.management := by
  unfold answerSetNodeIdentity
  repeat' split
  all_goals rfl

/-- A request that waits on with fewer blocks to go waits for the same outcome (R164). -/
theorem BuffersFollowArbiters.waitsOn {s t : State} (hs : BuffersFollowArbiters s) {p : Request → Bool}
    {r new : Request} (h : s.management.requests.find? p = some r)
    (ht : t.management = { s.management with requests := replaceRequest s.management.requests p new })
    (hside : new.side = r.side) (hlive : new.live = r.live) :
    BuffersFollowArbiters t := by
  have hkept (x : Side) : liveCount t.management.requests x = liveCount s.management.requests x := by
    rw [ht]
    exact liveCount_replaceRequest h hside hlive x
  have hstands := buffersFollowArbiters_iff.mp hs r.side
  refine hs.of_side (side := r.side) (by rw [ht, Sides.set_get_self]) (by rw [ht, Sides.set_get_self])
    (by rw [ht, Sides.set_get_self]) (fun x _ => hkept x) ?_
  rwa [hkept]

theorem serveStatus_follows {s : State} (hs : BuffersFollowArbiters s) (side : Side) (block : Block) :
    BuffersFollowArbiters (serveStatus s side block) := by
  unfold serveStatus
  split
  · exact hs
  · next r hf =>
    dsimp only
    split
    · exact hs.answered hf rfl
    · exact hs.waitsOn hf rfl rfl rfl

theorem clearItems_bufferView (s : State) (p : List Byte) (block : Block) :
    bufferView (clearItems s p block).management = bufferView s.management := by
  rw [clearItems_eq]
  rfl

theorem serveClear_follows {s : State} (hs : BuffersFollowArbiters s) (side : Side) (block : Block) :
    BuffersFollowArbiters (serveClear s side block) := by
  unfold serveClear
  split
  · exact hs
  · next r hf =>
    have hview : bufferView (if r.todo.contains block then clearItems s r.payload block else s).management =
        bufferView s.management := by
      split
      · exact clearItems_bufferView ..
      · rfl
    have hcleared := hs.of_view hview
    have hrequests := congrArg (fun v => v.2.2.2) hview
    simp only [bufferView] at hrequests
    rw [← hrequests] at hf
    dsimp only
    split
    · exact hcleared.answered hf (by rw [← hrequests])
    · exact hcleared.waitsOn (new := { r with todo := r.todo.erase block }) hf (by rw [← hrequests]) rfl rfl

/-! ## Frames started and ended -/

/-- A frame starts: the buffer that it came from, if any, and no other of its side is SENDING with it (R157, R158,
R160). -/
theorem BuffersFollowArbiters.started {s u : State} (hs : BuffersFollowArbiters s) {side : Side}
    {source : FrameSource} {skip : Nat} {bs : List Byte} {forward : ForwardBuffer} {reply : ReplyBuffer}
    (hf : u.management.forward = s.management.forward.set side forward)
    (hr : u.management.reply = s.management.reply.set side reply) (ha : u.management.arbiter = s.management.arbiter)
    (hq : u.management.requests = s.management.requests) (hforward : forward = .sending ↔ source = .forward)
    (hreply : (∃ b, reply = .sending b) ↔ source = .reply)
    (hreserved : reply = .reserved ↔ s.management.reply.get side = .reserved) :
    BuffersFollowArbiters (startSending u side skip source bs) := by
  obtain ⟨-, -, hlive⟩ := buffersFollowArbiters_iff.mp hs side
  refine hs.of_side hf hr (a := some { source := source, rest := bs.drop 1 }) (congrArg (Sides.set · side _) ha)
    (fun x _ => congrArg (liveCount · x) hq) ⟨?_, ?_, ?_⟩
  · exact hforward.trans (Option.some_inj (a := source)).symm
  · exact hreply.trans (Option.some_inj (a := source)).symm
  · exact (congrArg (liveCount · side) hq).trans (hlive.trans (if_congr hreserved.symm rfl rfl))

/-- Beside an idle arbiter neither buffer is SENDING (R157, R158). -/
theorem BuffersFollowArbiters.idle {s : State} (hs : BuffersFollowArbiters s) {side : Side}
    (hidle : s.management.arbiter.get side = none) :
    s.management.forward.get side ≠ .sending ∧ ∀ b, s.management.reply.get side ≠ .sending b := by
  obtain ⟨hforward, hreply, -⟩ := buffersFollowArbiters_iff.mp hs side
  rw [hidle] at hforward hreply
  exact ⟨fun h => (nomatch hforward.mp h), fun b h => (nomatch hreply.mp ⟨b, h⟩)⟩

theorem canStart_idle {s : State} {side : Side} {skip : Nat} (h : canStart s side skip = true) :
    s.management.arbiter.get side = none :=
  Option.isNone_iff_eq_none.mp (Bool.and_eq_true_iff.mp h).1

theorem startBuffered_follows {s : State} (hs : BuffersFollowArbiters s) {side : Side}
    (hidle : s.management.arbiter.get side = none) (skip : Nat) :
    BuffersFollowArbiters (startBuffered s side skip) := by
  obtain ⟨hforward, hreply⟩ := hs.idle hidle
  by_cases hf : ∃ bs, s.management.forward.get side = .holding bs
  · obtain ⟨bs, hf⟩ := hf
    rw [startBuffered_forward hf]
    exact hs.started (forward := .sending) rfl (Sides.set_get_self ..).symm rfl rfl (iff_of_true rfl rfl)
      (iff_of_false (fun ⟨b, h⟩ => hreply b h) nofun) Iff.rfl
  · have hnf := not_exists.mp hf
    by_cases hr : ∃ bs b, s.management.reply.get side = .holding bs b
    · obtain ⟨bs, b, hr⟩ := hr
      rw [startBuffered_reply hnf hr]
      refine hs.started (reply := .sending b) (Sides.set_get_self ..).symm rfl rfl rfl
        (iff_of_false hforward nofun) (iff_of_true ⟨b, rfl⟩ rfl) ?_
      rw [hr]
      exact iff_of_false nofun nofun
    · rw [startBuffered_nothing hnf fun bs b h => hr ⟨bs, b, h⟩]
      exact hs

theorem startNotice_follows {s : State} (hs : BuffersFollowArbiters s) (skip : Nat) :
    BuffersFollowArbiters (startNotice s skip) := by
  unfold startNotice
  split
  · exact hs
  · split
    · next hstart =>
      have hidle := canStart_idle (Bool.and_eq_true_iff.mp (Bool.and_eq_true_iff.mp hstart).1).1
      obtain ⟨hforward, hreply⟩ := hs.idle hidle
      exact hs.started (Sides.set_get_self ..).symm (Sides.set_get_self ..).symm rfl rfl
        (iff_of_false hforward nofun) (iff_of_false (fun ⟨b, h⟩ => hreply b h) nofun) Iff.rfl
    · exact hs

/-- A frame's end makes the arbiter idle and the buffer FREE that it was sending from (R157, R158, R160). -/
theorem endSending_follows {s : State} (hs : BuffersFollowArbiters s) (side : Side) :
    BuffersFollowArbiters (endSending s side) := by
  cases he : endingFrame s side with
  | none =>
    unfold endSending
    rwa [he]
  | some a =>
    by_cases hn : a.source = .reply ∧ s.management.reply.get side = .sending true
    · rwa [endSending_restart he hn.1 hn.2]
    · rw [endSending_eq he fun hs hr => hn ⟨hs, hr⟩]
      obtain ⟨hforward, hreply, hlive⟩ := buffersFollowArbiters_iff.mp hs side
      rw [endingFrame_arbiter he] at hforward hreply
      obtain ⟨source, rest⟩ := a
      cases source with
      | notice =>
        exact hs.of_side (Sides.set_get_self ..).symm (Sides.set_get_self ..).symm rfl (fun _ _ => rfl)
          ⟨hforward.trans (iff_of_false nofun nofun), hreply.trans (iff_of_false nofun nofun), hlive⟩
      | forward =>
        exact hs.of_side rfl (Sides.set_get_self ..).symm rfl (fun _ _ => rfl)
          ⟨iff_of_false nofun nofun, hreply.trans (iff_of_false nofun nofun), hlive⟩
      | reply =>
        obtain ⟨b, hb⟩ := hreply.mpr rfl
        rw [hb] at hlive
        exact hs.of_side (Sides.set_get_self ..).symm rfl rfl (fun _ _ => rfl)
          ⟨hforward.trans (iff_of_false nofun nofun), iff_of_false nofun nofun, hlive⟩

/-! ## Restarts and resets -/

/-- Without a frame, a buffer in use or a request whose outcome is awaited, all is in order. -/
theorem buffersFollowArbiters_of_free {t : State} (hf : t.management.forward = ⟨.free, .free⟩)
    (hr : t.management.reply = ⟨.free, .free⟩) (ha : t.management.arbiter = ⟨none, none⟩)
    (hq : ∀ r ∈ t.management.requests, r.live = false) : BuffersFollowArbiters t := by
  rw [buffersFollowArbiters_iff, hf, hr, ha]
  intro side
  have hlive : liveCount t.management.requests side = 0 := by
    rw [liveCount, List.length_eq_zero_iff, List.filter_eq_nil_iff]
    intro r hm
    simp [hq r hm]
  rw [hlive]
  cases side <;> exact ⟨iff_of_false nofun nofun, iff_of_false nofun nofun, rfl⟩

theorem restartNow_follows (s : State) (side : Side) (sent : Nat) : BuffersFollowArbiters (restartNow s side sent) := by
  refine buffersFollowArbiters_of_free rfl rfl rfl fun r hr => ?_
  obtain ⟨q, -, rfl⟩ := List.mem_map.mp hr
  rfl

theorem takeEffect_follows {s : State} (hs : BuffersFollowArbiters s) (side : Side) (sent : Nat) :
    BuffersFollowArbiters (takeEffect s side sent) := by
  unfold takeEffect
  split
  · exact restartNow_follows _ side sent
  · split
    · exact hs
    · split
      · exact restartNow_follows _ side sent
      · exact hs

theorem reset_follows {t : State} (h : t.management = .reset) : BuffersFollowArbiters t :=
  buffersFollowArbiters_of_free (by rw [h]; rfl) (by rw [h]; rfl) (by rw [h]; rfl) (by rw [h]; exact nofun)

/-! ## Steps -/

section
variable {s t : State} {f : State → State}

/-- A step of the part keeps the buffers with the arbiters when its effect does. -/
theorem follows_of_act (h : act s f = .next t) (hs : BuffersFollowArbiters s) (hf : BuffersFollowArbiters (f s)) :
    BuffersFollowArbiters t := by
  rcases act_cases h with ⟨_, rfl⟩ | ⟨_, rfl⟩
  · exact hs
  · exact hf

/-- A step of the part keeps the buffers with the arbiters when its effect leaves the management unit alone. -/
theorem follows_of_same (h : act s f = .next t) (hs : BuffersFollowArbiters s)
    (hf : (f s).management = s.management) : BuffersFollowArbiters t := follows_of_act h hs (hs.of_management hf)

end

/-- Every command keeps the buffers with the arbiters. -/
theorem exec_keeps_buffersFollowArbiters {c : Instr} {s t : State} (hs : BuffersFollowArbiters s)
    (h : exec c s = .next t) : BuffersFollowArbiters t := by
  cases c
  all_goals dsimp only [exec] at h
  -- Resets.
  case powerOn =>
    cases h
    exact (reset_follows (t := { State.reset with pending := s.pending }) rfl).of_view (startOutputs_bufferView _)
  case resetnAsserted =>
    cases h
    exact reset_follows rfl
  -- The management channel.
  case managementFrame side =>
    refine follows_of_act h hs ?_
    split
    · exact hs
    · next bs rest _ =>
      have taken : BuffersFollowArbiters { s with management := frameTaken s.management side rest } := hs
      exact judgeFrame_follows taken side bs rfl
  case noticeStart skip => exact follows_of_act h hs (startNotice_follows hs skip)
  case arbiterFrameStart output skip =>
    refine follows_of_act h hs ?_
    split
    · next hstart => exact startBuffered_follows hs (canStart_idle hstart) skip
    · exact hs
  case arbiterFrameEnd output => exact follows_of_act h hs (endSending_follows hs output)
  case restartTakesEffect moment => exact follows_of_act h hs (takeEffect_follows hs moment.side moment.sent)
  -- Requests.
  case setNodeIdentity side => exact follows_of_act h hs (serve_follows hs (answerSetNodeIdentity_bufferView s))
  case readStatus side block => exact follows_of_act h hs (serveStatus_follows hs side block)
  case clearDetected side block => exact follows_of_act h hs (serveClear_follows hs side block)
  case openWindow side => exact follows_of_act h hs (serve_keeps_follows hs answerOpenWindow_keeps)
  case closeWindow side => exact follows_of_act h hs (serve_keeps_follows hs answerCloseWindow_keeps)
  case setSlotRoles side => exact follows_of_act h hs (serve_keeps_follows hs answerSetSlotRoles_keeps)
  case loadMapEntry side => exact follows_of_act h hs (serve_keeps_follows hs answerLoadMapEntry_keeps)
  case clearMapEntry side => exact follows_of_act h hs (serve_keeps_follows hs answerClearMapEntry_keeps)
  case linkRoute side => exact follows_of_act h hs (serve_keeps_follows hs answerLinkRoute_keeps)
  case setProfile side => exact follows_of_act h hs (serve_keeps_follows hs answerSetProfile_keeps)
  case setReporting side => exact follows_of_act h hs (serve_keeps_follows hs answerSetReporting_keeps)
  case reverify side => exact follows_of_act h hs (serve_keeps_follows hs answerReverify_keeps)
  case queryTrail side => exact follows_of_act h hs (serve_keeps_follows hs answerQueryTrail_keeps)
  case queryTag side => exact follows_of_act h hs (serve_keeps_follows hs answerQueryTag_keeps)
  case queryRoute side => exact follows_of_act h hs (serve_keeps_follows hs answerQueryRoute_keeps)
  case setProbing side | restart side => exact follows_of_act h hs (serve_keeps_follows hs (fun _ _ => rfl))
  -- The carrier streams.
  case lockedFrameJudged side arrival =>
    refine follows_of_act h hs ?_
    split
    · exact hs.of_view (lockedFrame_bufferView ..)
    · exact hs
  case localFrameStart output =>
    refine follows_of_act h hs ?_
    split
    · exact hs.of_view (startLocalFrame_bufferView ..)
    · exact hs
  case transmitCycleStart => exact follows_of_same h hs (startCycle_management s)
  case huntCandidate | confirmFrame =>
    refine follows_of_same h hs ?_
    split <;> rfl
  -- Boundaries.
  case localPeriodBoundary target => exact follows_of_same h hs (boundaryAt_management ..)
  case settleLimitReached i | soakEnd i | defectHoldReached i =>
    exact follows_of_same h hs (management_when (contextBoundary_management ..))
  case intervalCountExpiry | probeTimeout index =>
    exact follows_of_same h hs (management_when (engineBoundary_management ..))
  -- Events between the blocks.
  case echoReceipt i =>
    refine follows_of_same h hs ?_
    split
    · rfl
    · exact takeHandoff_management ..
  case finding i =>
    refine follows_of_same h hs ?_
    split
    · rfl
    · exact takeFinding_management ..
  case cycleReport i | filterResetRequest i | baselineWrite i =>
    refine follows_of_same h hs ?_
    split <;> rfl
  case streamLoss i | acceptedSample i | withdrawRequest i => exact follows_of_same h hs (management_unless rfl)
  case contextRestart i => exact follows_of_same h hs (management_unless rfl)
  case tagReceiverRestart | lineTransmitterRestart | probeEngineRestart | reportUnitRestart =>
    exact follows_of_same h hs (management_unless rfl)
  case transmitCycleComplete | refclkTick => exact follows_of_same h hs rfl

/-- Settles O60: a step runs the command at the front of the queue, and every command keeps the buffers with the
arbiters. -/
theorem everyStepKeepsTheBuffersWithTheArbiters : Obligations.EveryStepKeepsTheBuffersWithTheArbiters := by
  intro s t hs h
  unfold step at h
  split at h
  · cases h
    exact hs
  · next c rest _ => exact exec_keeps_buffersFollowArbiters (s := { s with pending := rest }) hs h

end Sys2Proof.Machine
end

section
/-! PROOFS. The form of management frames and replies, and how a channel receiver collects a frame (O36). -/

namespace Sys2Proof.Machine

/-! ## The layout of a built frame -/

section
variable (dest source : Half) (kind seq : Byte) {payload : List Byte}

/-- The bytes that the check of a frame runs over: bytes 1 to 7+L (R152, R154). -/
def frameBody (payload : List Byte) : List Byte :=
  halfBytes dest ++ halfBytes source ++ [kind, seq, BitVec.ofNat 8 payload.length] ++ payload

theorem buildFrame_eq :
    buildFrame dest source kind seq payload =
      [0xC3] ++ frameBody dest source kind seq payload ++
        halfBytes (checkOf (frameBody dest source kind seq payload)) := rfl

theorem frameBody_length : (frameBody dest source kind seq payload).length = 7 + payload.length := by
  simp only [frameBody, halfBytes, List.length_append, List.length_cons, List.length_nil]

theorem buildFrame_length : (buildFrame dest source kind seq payload).length = 10 + payload.length := by
  rw [buildFrame_eq, List.length_append, List.length_append, frameBody_length]
  simp only [halfBytes, List.length_cons, List.length_nil]
  omega

theorem buildFrame_frameLength (h : payload.length ≤ 200) :
    frameLength (buildFrame dest source kind seq payload) = payload.length :=
  Nat.mod_eq_of_lt (by omega)

theorem buildFrame_payload (h : payload.length ≤ 200) :
    framePayload (buildFrame dest source kind seq payload) = payload := by
  rw [framePayload, buildFrame_frameLength _ _ _ _ h]
  exact List.take_left' rfl

/-- The bytes that the check is compared over are the body of the frame. -/
theorem buildFrame_checked :
    ((buildFrame dest source kind seq payload).drop 1).take (7 + payload.length) =
      frameBody dest source kind seq payload :=
  List.take_left' (frameBody_length ..)

theorem halfAt_append_right (as : List Byte) (h : Half) : halfAt (as ++ halfBytes h) as.length = h := by
  have hhigh : byteAt (as ++ halfBytes h) as.length = highByte h := by simp [byteAt, halfBytes]
  have hlow : byteAt (as ++ halfBytes h) (as.length + 1) = lowByte h := by simp [byteAt, halfBytes]
  exact (halfAt_eq_iff ..).mpr ⟨hhigh, hlow⟩

theorem buildFrame_check :
    halfAt (buildFrame dest source kind seq payload) (8 + payload.length) =
      checkOf (frameBody dest source kind seq payload) := by
  have hlength : ([0xC3] ++ frameBody dest source kind seq payload).length = 8 + payload.length := by
    rw [List.length_append, frameBody_length, List.length_singleton]
    omega
  rw [buildFrame_eq, ← hlength]
  exact halfAt_append_right ..

theorem buildFrame_good (h : payload.length ≤ 200) : frameGood (buildFrame dest source kind seq payload) = true := by
  refine beq_iff_eq.mpr ?_
  rw [buildFrame_frameLength _ _ _ _ h, buildFrame_checked, buildFrame_check]

end

/-! ## Reception -/

section
variable {done : List (List Byte)} {bs : List Byte} {b : Byte}

theorem channelByte_search (done : List (List Byte)) (b : Byte) :
    channelByte { taken := none, completed := done } b =
      { taken := if b = 0xC3 then some [0xC3] else none, completed := done } := by
  by_cases h : b = 0xC3
  · rw [h]
    rfl
  · exact (if_neg h).trans (by rw [if_neg h])

/-- In COLLECT a byte is added before the length byte has come, and after it until the frame is whole (R153). -/
theorem channelByte_goesOn
    (h : bs.length < 7 ∨ frameLength (bs ++ [b]) ≤ 200 ∧ bs.length + 1 < 10 + frameLength (bs ++ [b])) :
    channelByte { taken := some bs, completed := done } b = { taken := some (bs ++ [b]), completed := done } := by
  unfold channelByte
  dsimp only
  split
  · rfl
  · next hlong =>
    rw [List.length_append, List.length_singleton] at hlong ⊢
    obtain ⟨hmax, hmore⟩ := h.resolve_left (by omega)
    rw [frameLength] at hmax hmore
    rw [if_neg (Nat.not_lt.mpr hmax), if_neg (Nat.ne_of_lt hmore)]

/-- The last byte of a frame completes it (R153). -/
theorem channelByte_completes (hmax : frameLength (bs ++ [b]) ≤ 200)
    (hlength : bs.length + 1 = 10 + frameLength (bs ++ [b])) :
    channelByte { taken := some bs, completed := done } b = { taken := none, completed := done ++ [bs ++ [b]] } := by
  unfold channelByte
  dsimp only
  rw [frameLength] at hmax hlength
  rw [List.length_append, List.length_singleton, if_neg (by omega), if_neg (Nat.not_lt.mpr hmax), if_pos hlength]

/-- A length byte above 200 abandons the frame (R153). -/
theorem channelByte_abandons (hlength : bs.length = 7) (h : 200 < b.toNat) :
    channelByte { taken := some bs, completed := done } b = { taken := none, completed := done } := by
  have hb : byteAt (bs ++ [b]) 7 = b := by simp [byteAt, ← hlength]
  unfold channelByte
  dsimp only
  rw [List.length_append, List.length_singleton, if_neg (by omega), hb, if_pos h]

theorem frameLength_append {pre : List Byte} (h : 8 ≤ pre.length) (rest : List Byte) :
    frameLength (pre ++ rest) = frameLength pre := by
  unfold frameLength byteAt
  rw [List.getD_append _ _ _ _ h]

/-- The rest of a frame that is being collected completes it (R153). -/
theorem channelBytes_collects {rest : List Byte} (hrest : rest ≠ []) :
    ∀ {pre : List Byte}, frameLength (pre ++ rest) ≤ 200 → (pre ++ rest).length = 10 + frameLength (pre ++ rest) →
      channelBytes { taken := some pre, completed := done } rest =
        { taken := none, completed := done ++ [pre ++ rest] } := by
  induction rest with
  | nil => exact absurd rfl hrest
  | cons b rest ih =>
    intro pre hmax hlength
    cases rest with
    | nil =>
      rw [List.length_append, List.length_singleton] at hlength
      exact channelByte_completes hmax hlength
    | cons c rest =>
      have hsplit : pre ++ b :: c :: rest = pre ++ [b] ++ c :: rest := by simp
      rw [hsplit] at hmax hlength ⊢
      have hmore : pre.length < 7 ∨
          frameLength (pre ++ [b]) ≤ 200 ∧ pre.length + 1 < 10 + frameLength (pre ++ [b]) := by
        by_cases hshort : pre.length < 7
        · exact .inl hshort
        · rw [frameLength_append (by simp; omega)] at hmax hlength
          simp only [List.length_append, List.length_cons, List.length_nil] at hlength
          exact .inr ⟨hmax, by omega⟩
      rw [channelBytes, List.foldl_cons, channelByte_goesOn hmore]
      exact ih (by simp) hmax hlength

end

/-- A built frame is collected whole (R153). -/
theorem channelBytes_buildFrame (dest source : Half) (kind seq : Byte) {payload : List Byte}
    (done : List (List Byte)) (h : payload.length ≤ 200) :
    channelBytes { taken := none, completed := done } (buildFrame dest source kind seq payload) =
      { taken := none, completed := done ++ [buildFrame dest source kind seq payload] } := by
  have hlength := buildFrame_frameLength dest source kind seq h
  have hwhole := buildFrame_length dest source kind seq (payload := payload)
  rw [buildFrame_eq, List.append_assoc] at hlength hwhole ⊢
  rw [channelBytes, List.singleton_append, List.foldl_cons, channelByte_search]
  exact channelBytes_collects (pre := [0xC3]) (by simp [frameBody, halfBytes]) (by rw [hlength]; exact h)
    (by rw [hlength]; exact hwhole)

/-! ## Replies -/

/-- The command code of a reply is the one received, or 00h without one (R159). -/
theorem byteAt_zero (command : List Byte) : byteAt command 0 = command.headD 0x00 := by
  cases command <;> rfl

theorem replyPayload_length (command data : List Byte) (outcome : ReplyOutcome) :
    ([byteAt command 0, outcomeCode outcome] ++ data).length = 2 + data.length := List.length_append

/-- The payload of a reply: the command code, the outcome code and the data (R159). -/
theorem replyFrame_payload (identity : Option Half) (dest : Half) (seq : Byte) (command : List Byte)
    (outcome : ReplyOutcome) {data : List Byte} (h : data.length ≤ 198) :
    framePayload (replyFrame identity dest seq command outcome data) =
      command.headD 0x00 :: outcomeCode outcome :: data := by
  rw [replyFrame, buildFrame_payload _ _ _ _ (by rw [replyPayload_length]; omega), byteAt_zero]
  rfl

/-- Settles O36: the layout by `buildFrame_eq`, the receiver byte by byte by `channelByte`; a reply is a built frame. -/
theorem managementFramesAndRepliesHaveTheirForm : Obligations.ManagementFramesAndRepliesHaveTheirForm := by
  refine ⟨channelByte_search, fun done bs b => channelByte_abandons, fun dest source kind seq payload done h => ?_,
    fun identity dest seq command data outcome h => ?_⟩
  · exact ⟨buildFrame_length .., rfl, highByte_append_lowByte _, highByte_append_lowByte _, rfl, rfl,
      buildFrame_frameLength _ _ _ _ h, buildFrame_payload _ _ _ _ h, by rw [buildFrame_checked, buildFrame_check],
      buildFrame_good _ _ _ _ h, channelBytes_buildFrame _ _ _ _ done h⟩
  · have hp : ([byteAt command 0, outcomeCode outcome] ++ data).length ≤ 200 := by
      rw [replyPayload_length]
      omega
    have hlength : (byteAt (replyFrame identity dest seq command outcome data) 7).toNat = 2 + data.length :=
      (buildFrame_frameLength _ _ _ _ hp).trans (replyPayload_length ..)
    have hsource : halfAt (replyFrame identity dest seq command outcome data) 3 = identity.getD Config.localAddress :=
      highByte_append_lowByte _
    refine ⟨highByte_append_lowByte _, fun hi => ?_, fun node hi => ?_, rfl, rfl, hlength, buildFrame_good _ _ _ _ hp,
      (replyFrame_payload _ _ _ _ _ h).trans ?_⟩
    · rw [hsource, hi]
      rfl
    · rw [hsource, hi]
      rfl
    · cases outcome <;> rfl

end Sys2Proof.Machine
end

section
/-! PROOFS. RESTART: its answer, and its effect with the last byte of the reply (O41). -/

namespace Sys2Proof.Machine

/-! ## The answer -/

section
variable {s : State} {side : Side}

theorem execRestart_eq (hr : s.resetHeld = false) :
    exec (.restart side) s = .next (serve s side .restart fun s _ => done s) := by
  show execRestart side s = _
  rw [execRestart, act_running hr]

theorem serve_restart {r : Request} (hf : findRequest s side .restart = some r) :
    Replied side .restart r .done [] true s (serve s side .restart fun s _ => done s) ∧
    serve s side .restart (fun s _ => done s) =
      { s with management := (serve s side .restart fun s _ => done s).management } ∧
    OnlyReplies s.management (serve s side .restart fun s _ => done s).management :=
  ⟨serve_replied hf rfl rfl rfl rfl rfl, serve_state hf _, serve_management hf _⟩

/-! ## The effect -/

/-- What the restart of a side leaves, once the arbiter of the other output has stopped after `n` more positions (R163,
R181). -/
theorem restartNow_eq (s : State) (side : Side) (sent : Nat) :
    let other := opposite side
    let n := outputPositionsBy (s.output.get other) sent
    restartNow s side sent = { deliverRestarts s with
      output := s.output.set other
        (placeBytes (s.output.get other) (positionBytes (s.management.arbiter.get other) n))
      management := restartManagement { s.management with
        arbiter := s.management.arbiter.set other (arbiterAfter (s.management.arbiter.get other) n) } side } := rfl

theorem opposite_ne (side : Side) : opposite side ≠ side := by
  cases side <;> nofun

/-- The other output goes on to the positions reached by then, and its arbiter fills them (R160, R163). -/
theorem restartNow_other (s : State) (side : Side) (sent : Nat) :
    let other := opposite side
    ((s.output.get other).frame = none → (restartNow s side sent).output.get other = s.output.get other) ∧
    ∀ f, (s.output.get other).frame = some f →
      ∃ bs after, Fills (s.management.arbiter.get other) (toReach f sent) bs after ∧
        (restartNow s side sent).output.get other =
          { s.output.get other with frame := some { f with placed := f.placed ++ bs } } := by
  rw [restartNow_eq]
  dsimp only
  rw [Sides.get_set_same]
  refine ⟨fun h => placeBytes_none h _, fun f hf => ⟨_, _, fills_positionBytes _ _, ?_⟩⟩
  rw [placeBytes_some hf, outputPositionsBy, hf, toReach_eq]

theorem restartNow_side (s : State) (side : Side) (sent : Nat) :
    (restartNow s side sent).output.get side = s.output.get side := by
  rw [restartNow_eq]
  exact Sides.get_set_other _ (opposite_ne side).symm _

/-- A side's RESTART reply has ended once all of it has been placed (R163). -/
theorem restartReplyEnded_iff (m : ManagementUnit) (side : Side) :
    restartReplyEnded m side = true ↔
      m.reply.get side = .sending true ∧ m.arbiter.get side = some { source := .reply, rest := [] } := by
  rw [restartReplyEnded, Bool.and_eq_true, beq_iff_eq]
  refine and_congr_right fun _ => ?_
  cases m.arbiter.get side with
  | none => simp
  | some a =>
    obtain ⟨source, rest⟩ := a
    simp

/-- An arbiter has nothing left to place after `n` positions when no more than `n` bytes were left. -/
theorem arbiterAfter_ended_iff (a : Option Sending) (n : Nat) :
    arbiterAfter a n = some { source := .reply, rest := [] } ↔
      ∃ left, a = some { source := .reply, rest := left } ∧ left.length ≤ n := by
  cases a with
  | none => simp [arbiterAfter]
  | some a =>
    obtain ⟨source, rest⟩ := a
    simp [arbiterAfter]

theorem le_outputPositionsBy_iff (o : Output) (sent : Nat) (left : List Byte) :
    left.length ≤ outputPositionsBy o sent ↔
      left = [] ∨ ∃ f, o.frame = some f ∧ left.length ≤ toReach f sent := by
  rw [outputPositionsBy]
  cases o.frame with
  | none => simp
  | some f =>
    dsimp only
    rw [← toReach_eq]
    simp only [Option.some.injEq, exists_eq_left']
    exact ⟨.inr, fun h => h.elim (fun h => by simp [h]) id⟩

/-- The restart of a side is no longer marked; the other side's is, when its RESTART reply has ended by then (R182). -/
theorem restartNow_ended (s : State) (side : Side) (sent : Nat) :
    let other := opposite side
    (restartNow s side sent).management.restartEnded.get side = false ∧
    ((restartNow s side sent).management.restartEnded.get other = true ↔ s.management.restartEnded.get other = true ∨
      s.management.reply.get other = .sending true ∧
      ∃ left, s.management.arbiter.get other = some { source := .reply, rest := left } ∧
        (left = [] ∨ ∃ f, (s.output.get other).frame = some f ∧ left.length ≤ toReach f sent)) := by
  rw [restartNow_eq]
  simp only [restartManagement]
  refine ⟨?_, ?_⟩
  · rw [Sides.get_set_other _ (opposite_ne side).symm, Sides.get_set_same]
  · rw [Sides.get_set_same, Bool.or_eq_true, restartReplyEnded_iff, Sides.get_set_same, arbiterAfter_ended_iff]
    simp only [le_outputPositionsBy_iff]

theorem deliverRestarts_slot (s : State) (i : Slot) : (deliverRestarts s).slots[i] = { s.slots[i] with
    inFlight := { s.slots[i].inFlight with restarts := s.slots[i].inFlight.restarts + 1 } } := by
  rw [deliverRestarts, State.mapSlots_slot]

/-! ## RESTART_TAKES_EFFECT -/

theorem execRestartTakesEffect_eq (hr : s.resetHeld = false) (sent : Nat) :
    exec (.restartTakesEffect { side := side, sent := sent }) s = .next (takeEffect s side sent) := by
  show execRestartTakesEffect _ s = _
  rw [execRestartTakesEffect, act_running hr]

theorem takeEffect_marked {sent : Nat} (h : s.management.restartEnded.get side = true) :
    takeEffect s side sent = restartNow s side sent := if_pos h

/-- The rest of the RESTART reply has been placed, and the arbiter is idle (R160). -/
def replyPlaced (s : State) (side : Side) (rest : List Byte) : State :=
  { s with
    output := s.output.set side (placeBytes (s.output.get side) rest)
    management := { s.management with arbiter := s.management.arbiter.set side none } }

theorem takeEffect_ending {sent : Nat} {rest : List Byte} (h : s.management.restartEnded.get side = false)
    (hreply : s.management.reply.get side = .sending true)
    (ha : s.management.arbiter.get side = some { source := .reply, rest := rest })
    (hfits : rest = [] ∨
      ∃ f, (s.output.get side).frame = some f ∧ f.cut = none ∧ f.placed.length + rest.length ≤ 4) :
    takeEffect s side sent = restartNow (replyPlaced s side rest) side sent := by
  rw [takeEffect, if_neg (ne_true_of_eq_false h), endingFrame_of_fits ha hfits]
  dsimp only
  rw [if_pos ⟨rfl, hreply⟩, placeLast_eq ha]
  rfl

end

/-- Settles O41: the answer is `serve_restart`, and the effect `restartNow`, once the rest of the reply has been placed
where the restart is not marked. -/
theorem restartIsAnsweredAndTakesEffect : Obligations.RestartIsAnsweredAndTakesEffect := by
  refine ⟨fun s side r hr hf => ⟨_, execRestart_eq hr, serve_restart hf⟩, ?_⟩
  intro s side sent rest hr other ended h
  have hne : other ≠ side := opposite_ne side
  cases he : ended with
  | true =>
    obtain ⟨hnone, hsome⟩ := restartNow_other s side sent
    obtain ⟨hside, hother⟩ := restartNow_ended s side sent
    exact ⟨_, (execRestartTakesEffect_eq hr sent).trans (congrArg _ (takeEffect_marked he)), fun _ _ => nofun,
      fun _ => restartNow_side s side sent, hnone, hsome, rfl, hside, hother, rfl, deliverRestarts_slot s, rfl⟩
  | false =>
    obtain ⟨hreply, ha, hfits⟩ := h he
    have houtput : (replyPlaced s side rest).output.get other = s.output.get other := Sides.get_set_other _ hne _
    have harbiter : (replyPlaced s side rest).management.arbiter.get other = s.management.arbiter.get other :=
      Sides.get_set_other _ hne _
    obtain ⟨hnone, hsome⟩ := restartNow_other (replyPlaced s side rest) side sent
    obtain ⟨hside, hother⟩ := restartNow_ended (replyPlaced s side rest) side sent
    have hplaced : (restartNow (replyPlaced s side rest) side sent).output.get side =
        placeBytes (s.output.get side) rest := (restartNow_side ..).trans (Sides.get_set_same ..)
    rw [houtput] at hnone hsome hother
    rw [harbiter] at hsome hother
    refine ⟨_, (execRestartTakesEffect_eq hr sent).trans (congrArg _ (takeEffect_ending he hreply ha hfits)),
      fun f hf _ => hplaced.trans (placeBytes_some hf rest),
      fun hframe => hplaced.trans (placeBytes_none (hframe.resolve_left nofun) rest),
      hnone, hsome, rfl, hside, hother, rfl, deliverRestarts_slot (replyPlaced s side rest), rfl⟩

end Sys2Proof.Machine
end

section
/-! PROOFS. SET NODE IDENTITY (O43). -/

namespace Sys2Proof.Machine

section
variable {s : State} {p : List Byte}

theorem execSetNodeIdentity_eq (hr : s.resetHeld = false) (side : Side) :
    exec (.setNodeIdentity side) s = .next (serve s side .setNodeIdentity answerSetNodeIdentity) := by
  show execSetNodeIdentity side s = _
  rw [execSetNodeIdentity, act_running hr]

theorem answerSetNodeIdentity_value (h : halfAt p 1 = 0 ∨ halfAt p 1 = 65535) :
    answerSetNodeIdentity s p = refuse s .value := by
  have hn : nodeNumber (halfAt p 1) = false :=
    Bool.eq_false_iff.mpr fun hn => h.elim ((nodeNumber_iff _).mp hn).1 ((nodeNumber_iff _).mp hn).2
  rw [answerSetNodeIdentity, hn]
  rfl

theorem answerSetNodeIdentity_valid (h0 : halfAt p 1 ≠ 0) (h1 : halfAt p 1 ≠ 65535) :
    answerSetNodeIdentity s p =
      if s.management.identity.isSome then refuse s .identity
      else done { s with management := { s.management with identity := some (halfAt p 1) } } := by
  rw [answerSetNodeIdentity, (nodeNumber_iff _).mpr ⟨h0, h1⟩]
  rfl

end

/-- Settles O43: the node number is judged first, then whether an identity is set. -/
theorem nodeIdentityIsSetOnce : Obligations.NodeIdentityIsSetOnce := by
  intro s side r hr hf node
  refine ⟨_, execSetNodeIdentity_eq hr side, fun h => ?_, fun h0 h1 hset => ?_, fun h0 h1 hunset => ?_⟩
  · exact serve_refused hf rfl (answerSetNodeIdentity_value h)
  · refine serve_refused hf rfl ((answerSetNodeIdentity_valid h0 h1).trans (if_pos ?_))
    exact Option.isSome_iff_ne_none.mpr hset
  · have ha : answerSetNodeIdentity s r.payload =
        done { s with management := { s.management with identity := some node } } :=
      (answerSetNodeIdentity_valid h0 h1).trans (if_neg (by rw [hunset]; exact nofun))
    have honly : OnlyReplies { s.management with identity := some node } (serve s side .setNodeIdentity
        answerSetNodeIdentity).management := by
      have h := serve_management hf answerSetNodeIdentity
      rwa [ha] at h
    have hidentity : (serve s side .setNodeIdentity answerSetNodeIdentity).management.identity = some node := by
      rw [honly]
    refine ⟨serve_replied hf (by rw [ha]; rfl) (by rw [ha]; rfl) rfl (by rw [ha]; rfl) (by rw [ha]; rfl), hidentity, ?_⟩
    have hstate := serve_state hf answerSetNodeIdentity
    rw [ha] at hstate
    refine hstate.trans (congrArg (fun m => { s with management := m }) ?_)
    rw [hidentity]
    exact honly

end Sys2Proof.Machine
end

section
/-! PROOFS. READ STATUS at one block (O50): what a block writes into the status bytes, and the request taken. -/

namespace Sys2Proof.Machine

/-! ## Bytes written -/

section
variable {data bs : List Byte} {at_ n k : Nat} (hd : data.length = 26) (hn : bs.length = n) (h : at_ + n ≤ 26)
include hd hn h

theorem writeData_length : (writeData data at_ bs).length = 26 := by
  simp only [writeData, List.length_append, List.length_take, List.length_drop]
  omega

/-- Inside the bytes written the data are those bytes. -/
theorem byteAt_writeData (hk : k < n) : byteAt (writeData data at_ bs) (at_ + k) = byteAt bs k := by
  have htake : (data.take at_).length = at_ := List.length_take_of_le (by omega)
  unfold byteAt writeData
  rw [List.append_assoc, List.getD_append_right _ _ _ _ (by omega), htake, Nat.add_sub_cancel_left,
    List.getD_append _ _ _ _ (hn.symm ▸ hk)]

/-- Outside the bytes written the data stay. -/
theorem byteAt_writeData_outside (hk : k < at_ ∨ at_ + n ≤ k) :
    byteAt (writeData data at_ bs) k = byteAt data k := by
  have htake : (data.take at_).length = at_ := List.length_take_of_le (by omega)
  unfold byteAt writeData
  rcases hk with hk | hk
  · rw [List.append_assoc, List.getD_append _ _ _ _ (by omega)]
    simp [List.getD_eq_getElem?_getD, hk]
  · rw [List.getD_append_right _ _ _ _ (by rw [List.length_append]; omega)]
    simp only [List.length_append, htake, List.getD_eq_getElem?_getD, List.getElem?_drop]
    rw [hn, Nat.add_sub_cancel' hk]

theorem halfAt_writeData (hk : k + 1 < n) : halfAt (writeData data at_ bs) (at_ + k) = halfAt bs k := by
  rw [halfAt, halfAt, byteAt_writeData hd hn h (by omega), Nat.add_assoc, byteAt_writeData hd hn h hk]

theorem halfAt_writeData_outside (hk : k + 1 < at_ ∨ at_ + n ≤ k) :
    halfAt (writeData data at_ bs) k = halfAt data k := by
  rw [halfAt, halfAt, byteAt_writeData_outside hd hn h (by omega), byteAt_writeData_outside hd hn h (by omega)]

end

theorem beBytes_length (k n : Nat) : (beBytes k n).length = k := by
  induction k with
  | zero => rfl
  | succ k ih => rw [beBytes, List.length_cons, ih]

/-- Three 16-bit counts in their bytes. -/
def countBytes (a b c : Nat) : List Byte := beBytes 2 a ++ beBytes 2 b ++ beBytes 2 c

theorem countBytes_length (a b c : Nat) : (countBytes a b c).length = 6 := by
  simp only [countBytes, List.length_append, beBytes_length]

theorem countBytes_halves (a b c : Nat) :
    halfAt (countBytes a b c) 0 = BitVec.ofNat 16 a ∧ halfAt (countBytes a b c) 2 = BitVec.ofNat 16 b ∧
      halfAt (countBytes a b c) 4 = BitVec.ofNat 16 c := by
  simp only [countBytes, beBytes_two]
  exact ⟨append_ofNat_bytes a, append_ofNat_bytes b, append_ofNat_bytes c⟩

/-- A number modulo a power of two, with its last byte apart. -/
theorem append_ofNat_byte (w n : Nat) :
    BitVec.ofNat w (n / 256) ++ (BitVec.ofNat 8 n : Byte) = BitVec.ofNat (w + 8) n := by
  apply BitVec.eq_of_toNat_eq
  rw [BitVec.toNat_append, ← Nat.shiftLeft_add_eq_or_of_lt (BitVec.isLt _), Nat.shiftLeft_eq]
  simp only [BitVec.toNat_ofNat]
  rw [Nat.pow_add, Nat.mul_comm (2 ^ w), Nat.mod_mul, show 2 ^ 8 = 256 from rfl]
  omega

/-- A 32-bit value in its four bytes, high byte first. -/
theorem append_ofNat_four (x : BitVec 32) :
    (BitVec.ofNat 8 (x.toNat / 16777216) : Byte) ++ (BitVec.ofNat 8 (x.toNat / 65536) : Byte) ++
      (BitVec.ofNat 8 (x.toNat / 256) : Byte) ++ (BitVec.ofNat 8 x.toNat : Byte) = x := by
  rw [show x.toNat / 16777216 = x.toNat / 256 / 256 / 256 by omega, show x.toNat / 65536 = x.toNat / 256 / 256 by omega,
    append_ofNat_byte, append_ofNat_byte, append_ofNat_byte, BitVec.ofNat_toNat, BitVec.setWidth_eq]

/-! ## Places of the status bytes -/

/-- Status bytes that differ from others at some places alone (R166). -/
def DiffersAt (places : List Nat) (old new : List Byte) : Prop :=
  new.length = 26 ∧ ∀ k, k ∉ places → byteAt new k = byteAt old k

theorem DiffersAt.trans {places more : List Nat} {a b c : List Byte} (h : DiffersAt places a b)
    (g : DiffersAt more b c) : DiffersAt (places ++ more) a c := by
  refine ⟨g.1, fun k hk => ?_⟩
  rw [List.mem_append, not_or] at hk
  rw [g.2 k hk.2, h.2 k hk.1]

theorem differsAt_writeData {data bs : List Byte} {at_ n : Nat} (hd : data.length = 26) (hn : bs.length = n)
    (h : at_ + n ≤ 26) : DiffersAt (List.range' at_ n) data (writeData data at_ bs) := by
  refine ⟨writeData_length hd hn h, fun k hk => byteAt_writeData_outside hd hn h ?_⟩
  rw [List.mem_range'_1] at hk
  omega

theorem differsAt_orFlags {data : List Byte} (hd : data.length = 26) (bits : Byte) :
    DiffersAt [4] data (orFlags data bits) := differsAt_writeData (n := 1) hd rfl (by decide)

theorem byteAt_orFlags {data : List Byte} (hd : data.length = 26) (bits : Byte) :
    byteAt (orFlags data bits) 4 = byteAt data 4 ||| bits :=
  byteAt_writeData (n := 1) (k := 0) hd rfl (by decide) (by decide)

/-! ## What each block writes -/

section
variable {data : List Byte} (hd : data.length = 26) (s : State)
include hd

theorem statusRead_managementUnit :
    let d := statusRead s data .managementUnit
    DiffersAt [0, 1, 4, 5, 6, 7, 8, 9, 10] data d ∧ halfAt d 0 = s.management.identity.getD 0 ∧
    byteAt d 4 = byteAt data 4 ||| oneBit s.management.identity.isSome 0 ∧
    halfAt d 5 = BitVec.ofNat 16 s.management.checkErrors ∧
    halfAt d 7 = BitVec.ofNat 16 s.management.commandDiscards ∧
    halfAt d 9 = BitVec.ofNat 16 s.management.forwardDiscards := by
  have hnamed : DiffersAt [0, 1] data (writeData data 0 (halfBytes (s.management.identity.getD 0))) :=
    differsAt_writeData (n := 2) hd rfl (by decide)
  have hflagged := differsAt_orFlags hnamed.1 (oneBit s.management.identity.isSome 0)
  have hlength := countBytes_length s.management.checkErrors s.management.commandDiscards s.management.forwardDiscards
  have hcounted := differsAt_writeData (at_ := 5) hflagged.1 hlength (by decide)
  have hcount (k : Nat) (hk : k + 1 < 6) := halfAt_writeData (at_ := 5) hflagged.1 hlength (by decide) hk
  obtain ⟨herrors, hcommands, hforwards⟩ := countBytes_halves s.management.checkErrors s.management.commandDiscards
    s.management.forwardDiscards
  refine ⟨(hnamed.trans hflagged).trans hcounted, ?_, ?_, (hcount 0 (by decide)).trans herrors,
    (hcount 2 (by decide)).trans hcommands, (hcount 4 (by decide)).trans hforwards⟩
  · refine (halfAt_writeData_outside hflagged.1 hlength (by decide) (.inl (by decide))).trans ?_
    refine (halfAt_writeData_outside (n := 1) hnamed.1 rfl (by decide) (.inl (by decide))).trans ?_
    exact (halfAt_writeData (n := 2) (k := 0) hd rfl (by decide) (by decide)).trans (highByte_append_lowByte _)
  · refine (hcounted.2 4 (by decide)).trans ?_
    rw [byteAt_orFlags hnamed.1, hnamed.2 4 (by decide)]

theorem statusRead_receiver (at_ : Nat) (h : at_ < 26) (align : Align) :
    let d := writeData data at_ (beBytes 1 (alignCode align))
    DiffersAt [at_] data d ∧ (byteAt d at_).toNat = alignCode align := by
  have hcode : (byteAt (beBytes 1 (alignCode align)) 0).toNat = alignCode align := by
    rw [beBytes_one]
    cases align <;> rfl
  refine ⟨differsAt_writeData (n := 1) hd rfl h, Eq.trans ?_ hcode⟩
  exact congrArg BitVec.toNat (byteAt_writeData (n := 1) (k := 0) hd rfl h (by decide))

theorem statusRead_reportUnit :
    let d := statusRead s data .reportUnit
    DiffersAt [4, 17] data d ∧
    byteAt d 4 = (byteAt data 4 ||| (oneBit s.report.alert 3 ||| oneBit s.report.seen.minor 4 |||
      oneBit s.report.seen.major 5 ||| oneBit s.report.seen.critical 6)) ∧
    byteAt d 17 = BitVec.ofNat 8 s.report.queue.length := by
  have hflagged := differsAt_orFlags hd (oneBit s.report.alert 3 ||| oneBit s.report.seen.minor 4 |||
    oneBit s.report.seen.major 5 ||| oneBit s.report.seen.critical 6)
  have hlength := beBytes_length 1 s.report.queue.length
  have hqueued := differsAt_writeData (at_ := 17) hflagged.1 hlength (by decide)
  refine ⟨hflagged.trans hqueued, (hqueued.2 4 (by decide)).trans (byteAt_orFlags hd _), ?_⟩
  refine (byteAt_writeData (at_ := 17) (k := 0) hflagged.1 hlength (by decide) (by decide)).trans ?_
  rw [beBytes_one]
  rfl

theorem statusRead_probeEngine :
    let d := statusRead s data .probeEngine
    DiffersAt [11, 12, 13, 14, 15, 16, 20] data d ∧ halfAt d 11 = BitVec.ofNat 16 s.probe.lost ∧
    halfAt d 13 = BitVec.ofNat 16 s.probe.late ∧ halfAt d 15 = BitVec.ofNat 16 s.probe.rejected ∧
    (byteAt d 20).toNat = s.probe.rotationIndex.val := by
  have hlength := countBytes_length s.probe.lost s.probe.late s.probe.rejected
  have hcounted := differsAt_writeData (at_ := 11) hd hlength (by decide)
  have hone := beBytes_length 1 s.probe.rotationIndex.val
  have hindexed := differsAt_writeData (at_ := 20) hcounted.1 hone (by decide)
  have hcount (k : Nat) (hk : k + 1 < 6) :=
    (halfAt_writeData_outside (at_ := 20) (k := 11 + k) hcounted.1 hone (by decide) (.inl (by omega))).trans
      (halfAt_writeData (at_ := 11) hd hlength (by decide) hk)
  obtain ⟨hlost, hlate, hrejected⟩ := countBytes_halves s.probe.lost s.probe.late s.probe.rejected
  refine ⟨hcounted.trans hindexed, (hcount 0 (by decide)).trans hlost, (hcount 2 (by decide)).trans hlate,
    (hcount 4 (by decide)).trans hrejected, ?_⟩
  refine (congrArg BitVec.toNat
    (byteAt_writeData (at_ := 20) (k := 0) hcounted.1 hone (by decide) (by decide))).trans ?_
  rw [beBytes_one]
  exact Nat.mod_eq_of_lt (Nat.lt_trans s.probe.rotationIndex.isLt (by decide))

theorem statusRead_routePool :
    let d := statusRead s data .routePool
    DiffersAt [18, 19] data d ∧ halfAt d 18 = BitVec.ofNat 16 s.freeHops.length := by
  have hlength := beBytes_length 2 (freeCount s)
  refine ⟨differsAt_writeData hd hlength (by decide), ?_⟩
  refine (halfAt_writeData (at_ := 18) (k := 0) hd hlength (by decide) (by decide)).trans ?_
  rw [beBytes_two]
  exact append_ofNat_bytes _

theorem statusRead_timebase :
    let d := statusRead s data .timebase
    DiffersAt [21, 22, 23, 24] data d ∧
    byteAt d 21 ++ byteAt d 22 ++ byteAt d 23 ++ byteAt d 24 = s.timebase.periodClock := by
  have hlength := beBytes_length 4 s.timebase.periodClock.toNat
  have hbyte (k : Nat) (hk : k < 4) := byteAt_writeData (at_ := 21) hd hlength (by decide) hk
  refine ⟨differsAt_writeData hd hlength (by decide), ?_⟩
  simp only [statusRead]
  rw [hbyte 0 (by decide), hbyte 1 (by decide), hbyte 2 (by decide), hbyte 3 (by decide), beBytes_four]
  exact append_ofNat_four _

end

/-! ## The request taken -/

section
variable {side : Side} {block : Block} {r : Request} {before after : List Request}

theorem waitsFor_iff {c : Command} :
    waitsFor side c block r = true ↔ r.side = side ∧ r.command = c ∧ block ∈ r.todo := by
  simp [waitsFor, and_assoc]

/-- The status bytes that a read of a block adds to: those read so far, or the 26 bytes before any read (R166). -/
def statusSoFar (r : Request) : List Byte := if r.data = [] then emptyStatus else r.data

theorem statusSoFar_length (h : r.data = [] ∨ r.data.length = 26) : (statusSoFar r).length = 26 := by
  unfold statusSoFar
  split
  · rfl
  · next hn => exact h.resolve_left hn

/-- The management unit once a request has been taken for its read of a block: it waits on for its other blocks, or is
answered (R164, R166). -/
def statusTaken (m : ManagementUnit) (before after : List Request) (r : Request) (left : List Block)
    (d : List Byte) : ManagementUnit :=
  if left = [] then placeReply { m with requests := before ++ after } r .done d false
  else { m with requests := before ++ { r with todo := left, data := d } :: after }

theorem statusTaken_onlyReplies {m : ManagementUnit} {left : List Block} {d : List Byte} :
    OnlyReplies m (statusTaken m before after r left d) := by
  unfold statusTaken OnlyReplies
  split
  · rw [placeReply_eq]
  · rfl

/-- The oldest READ STATUS that waits for the block is taken for its read there (R166). -/
theorem serveStatus_eq {s : State} (hq : s.management.requests = before ++ r :: after)
    (hr : waitsFor side .readStatus block r = true)
    (hbefore : ∀ q ∈ before, waitsFor side .readStatus block q = false) (hnodup : r.todo.Nodup) :
    serveStatus s side block = { s with
      management := statusTaken s.management before after r (r.todo.filter fun b => b != block)
        (statusRead s (statusSoFar r) block) } := by
  have hleft : r.todo.erase block = r.todo.filter fun b => b != block := hnodup.erase_eq_filter block
  have hfind : (before ++ r :: after).find? (waitsFor side .readStatus block) = some r :=
    List.find?_eq_some_iff_append.mpr ⟨hr, before, after, rfl, fun q h => by rw [hbefore q h]; rfl⟩
  rw [serveStatus, hq, hfind]
  dsimp only
  rw [hleft, eraseP_split hbefore hr, replaceRequest_split hbefore hr, statusTaken]
  split <;> rfl

theorem execReadStatus_eq {s : State} (hr : s.resetHeld = false) :
    exec (.readStatus side block) s = .next (serveStatus s side block) := by
  show execReadStatus side block s = _
  rw [execReadStatus, act_running hr]

end

/-- Settles O50: the oldest request that waits for the block is taken by `statusTaken`, with what `statusRead` writes at
the block. -/
theorem statusIsReadBlockByBlock : Obligations.StatusIsReadBlockByBlock := by
  intro s side block before after r hr hq hside hcommand hblock hnodup hbefore hdata old left
  have hwaits : waitsFor side .readStatus block r = true := waitsFor_iff.mpr ⟨hside, hcommand, hblock⟩
  have hfirst : ∀ q ∈ before, waitsFor side .readStatus block q = false := by
    intro q hmem
    refine Bool.eq_false_iff.mpr fun h => ?_
    obtain ⟨hs, hc, hw⟩ := waitsFor_iff.mp h
    exact hbefore q hmem hs hc hw
  have hd : old.length = 26 := statusSoFar_length hdata
  refine ⟨_, statusRead s old block,
    (execReadStatus_eq hr).trans (congrArg _ (serveStatus_eq hq hwaits hfirst hnodup)), rfl, statusTaken_onlyReplies,
    fun h => ?waiting, fun h => ?answered, ?written⟩
  case waiting =>
    dsimp only
    rw [statusTaken, if_neg h]
    exact ⟨rfl, rfl⟩
  case answered =>
    dsimp only
    rw [statusTaken, if_pos h]
    refine ⟨by rw [placeReply_eq], fun hl => ?_, fun hl => ?_⟩
    · rw [placeReply_live hl, hside]
      rfl
    · rw [placeReply_dead hl]
  case written =>
    cases block with
    | managementUnit =>
      obtain ⟨⟨hlength, hkept⟩, hnode, hflags, hcounts⟩ := statusRead_managementUnit hd s
      refine ⟨hlength, hkept, hnode, hflags.trans (congrArg _ ?_), hcounts⟩
      cases s.management.identity with
      | none => rfl
      | some node =>
        rw [if_neg nofun]
        rfl
    | lineReceiver =>
      obtain ⟨⟨hlength, hkept⟩, halign⟩ := statusRead_receiver hd 2 (by decide) s.receiver.line.align
      exact ⟨hlength, hkept, halign⟩
    | dropReceiver =>
      obtain ⟨⟨hlength, hkept⟩, halign⟩ := statusRead_receiver hd 3 (by decide) s.receiver.drop.align
      exact ⟨hlength, hkept, halign⟩
    | lineTransmitter =>
      obtain ⟨hlength, hkept⟩ := differsAt_orFlags hd (oneBit (s.output.line.timing == .localTimed) 2)
      refine ⟨hlength, hkept, (byteAt_orFlags hd _).trans (congrArg _ ?_)⟩
      cases s.output.line.timing <;> rfl
    | dropTransmitter =>
      obtain ⟨hlength, hkept⟩ := differsAt_orFlags hd (oneBit (s.output.drop.timing == .localTimed) 1)
      refine ⟨hlength, hkept, (byteAt_orFlags hd _).trans (congrArg _ ?_)⟩
      cases s.output.drop.timing <;> rfl
    | reportUnit =>
      obtain ⟨⟨hlength, hkept⟩, hflags, hqueue⟩ := statusRead_reportUnit hd s
      refine ⟨hlength, hkept, hflags.trans ?_, hqueue⟩
      simp only [BitVec.or_assoc]
      rfl
    | probeEngine =>
      obtain ⟨⟨hlength, hkept⟩, hvalues⟩ := statusRead_probeEngine hd s
      exact ⟨hlength, hkept, hvalues⟩
    | routePool =>
      obtain ⟨⟨hlength, hkept⟩, hfree⟩ := statusRead_routePool hd s
      exact ⟨hlength, hkept, hfree⟩
    | timebase =>
      obtain ⟨⟨hlength, hkept⟩, hclock⟩ := statusRead_timebase hd s
      exact ⟨hlength, hkept, hclock⟩

end Sys2Proof.Machine
end

section
/-! PROOFS. The codes, lengths and blocks of the commands (O38). -/

namespace Sys2Proof.Machine

/-! ## Codes -/

/-- The code of a command (R164). -/
def commandCode : Command → Byte
  | .setNodeIdentity => 0x10
  | .readStatus => 0x11
  | .openWindow => 0x20
  | .closeWindow => 0x21
  | .setSlotRoles => 0x30
  | .loadMapEntry => 0x31
  | .clearMapEntry => 0x32
  | .linkRoute => 0x33
  | .setProfile => 0x40
  | .setProbing => 0x41
  | .setReporting => 0x42
  | .reverify => 0x50
  | .queryTrail => 0x60
  | .queryTag => 0x61
  | .queryRoute => 0x62
  | .clearDetected => 0x70
  | .restart => 0x7F

theorem commandOf_commandCode (c : Command) : commandOf (commandCode c) = some c := by
  cases c <;> rfl

/-- A byte that is read as a command is the code of that command. -/
theorem eq_commandCode_of_commandOf {b : Byte} {c : Command} (h : commandOf b = some c) : b = commandCode c := by
  unfold commandOf at h
  split at h <;> cases h <;> exact BitVec.eq_of_toNat_eq (by assumption)

/-! ## Blocks -/

theorem mem_blocksOf_readStatus (p : List Byte) (block : Block) : block ∈ blocksOf .readStatus p := by
  cases block <;> simp [blocksOf]

theorem mem_blocksOf_clearDetected (p : List Byte) (block : Block) :
    block ∈ blocksOf .clearDetected p ↔
      block ∈ [Block.reportUnit, .managementUnit, .probeEngine] ∧ clearSelects p block = true := List.mem_filter

theorem blocksOf_owner {c : Command} (hr : c ≠ .readStatus) (hc : c ≠ .clearDetected) (p : List Byte) :
    blocksOf c p = [] := by
  unfold blocksOf
  split
  · exact absurd rfl hr
  · exact absurd rfl hc
  · rfl

/-- Settles O38: the rows of the table by evaluation, the other codes by `eq_commandCode_of_commandOf`. -/
theorem commandCodesLengthsAndBlocks : Obligations.CommandCodesLengthsAndBlocks := by
  delta Obligations.CommandCodesLengthsAndBlocks
  intro table
  refine ⟨?rows, rfl, fun p => (Bool.decide_and ..).symm, fun b hlink hrows => ?unknown, fun p => ?blocks⟩
  case rows =>
    simp only [table, List.forall_mem_cons]
    exact ⟨⟨rfl, fun _ => rfl⟩, ⟨rfl, fun _ => rfl⟩, ⟨rfl, fun _ => rfl⟩, ⟨rfl, fun _ => rfl⟩, ⟨rfl, fun _ => rfl⟩,
      ⟨rfl, fun _ => rfl⟩, ⟨rfl, fun _ => rfl⟩, ⟨rfl, fun _ => rfl⟩, ⟨rfl, fun _ => rfl⟩, ⟨rfl, fun _ => rfl⟩,
      ⟨rfl, fun _ => rfl⟩, ⟨rfl, fun _ => rfl⟩, ⟨rfl, fun _ => rfl⟩, ⟨rfl, fun _ => rfl⟩, ⟨rfl, fun _ => rfl⟩,
      ⟨rfl, fun _ => rfl⟩, nofun⟩
  case unknown =>
    refine Option.eq_none_iff_forall_ne_some.mpr fun c hc => ?_
    have hcode := eq_commandCode_of_commandOf hc
    have hlisted : c = .linkRoute ∨ ∃ row ∈ table, commandCode c = BitVec.ofNat 8 row.1 := by
      simp only [table]
      cases c <;> decide
    rcases hlisted with rfl | ⟨row, hmem, hrow⟩
    · exact hlink hcode
    · exact hrows row hmem (hcode.trans hrow)
  case blocks =>
    refine ⟨fun c hr hc => blocksOf_owner hr hc p, by simp [blocksOf], mem_blocksOf_readStatus p, List.Nodup.filter _ (by decide),
      fun block => ?_⟩
    rw [mem_blocksOf_clearDetected]
    cases block <;> simp [clearSelects, or_assoc]

end Sys2Proof.Machine
end

section
/-! PROOFS. The queries of a slot (O49): the trail record in the layout of R177, the tag records of R178, the route. -/

namespace Sys2Proof.Machine

/-! ## A request that is answered without an effect -/

theorem serve_answers {s : State} {side : Side} {c : Command} {r : Request} {answer : State → List Byte → Answer}
    {data : List Byte} (hf : findRequest s side c = some r) (hc : (c == .restart) = false)
    (ha : answer s r.payload = doneWith s data) :
    Replied side c r .done data false s (serve s side c answer) ∧
    serve s side c answer = { s with management := (serve s side c answer).management } ∧
    OnlyReplies s.management (serve s side c answer).management := by
  obtain ⟨hreplied, honly, hstate⟩ := serve_done hf hc ha rfl
  exact ⟨hreplied, hstate, honly⟩

section
variable {s : State} {p : List Byte} {i : Slot}

theorem execQueryTrail_eq (hr : s.resetHeld = false) (side : Side) :
    exec (.queryTrail side) s = .next (serve s side .queryTrail answerQueryTrail) := by
  show execQueryTrail side s = _
  rw [execQueryTrail, act_running hr]

theorem execQueryTag_eq (hr : s.resetHeld = false) (side : Side) :
    exec (.queryTag side) s = .next (serve s side .queryTag answerQueryTag) := by
  show execQueryTag side s = _
  rw [execQueryTag, act_running hr]

theorem execQueryRoute_eq (hr : s.resetHeld = false) (side : Side) :
    exec (.queryRoute side) s = .next (serve s side .queryRoute answerQueryRoute) := by
  show execQueryRoute side s = _
  rw [execQueryRoute, act_running hr]

theorem answerQueryTrail_noSlot (h : slotOf (byteAt p 1) = none) : answerQueryTrail s p = refuse s .value := by
  simp only [answerQueryTrail, h]

theorem answerQueryTrail_slot (h : slotOf (byteAt p 1) = some i) :
    answerQueryTrail s p = doneWith s (trailRecord s i) := by
  simp only [answerQueryTrail, h]

theorem answerQueryTag_noSlot (h : slotOf (byteAt p 1) = none) : answerQueryTag s p = refuse s .value := by
  simp only [answerQueryTag, h]

/-- QUERY TAG of a form without a record is refused, for every slot number (R178). -/
theorem answerQueryTag_noForm (h : 3 < (byteAt p 2).toNat) : answerQueryTag s p = refuse s .value := by
  have hrecord (sl : SlotState) : tagRecord sl (byteAt p 2) = none := by
    have hne {b : Byte} (hb : b.toNat ≤ 3) : byteAt p 2 ≠ b := by
      rintro rfl
      omega
    rw [tagRecord, if_neg (hne (by decide)), if_neg (hne (by decide)), if_neg (hne (by decide)),
      if_neg (hne (by decide))]
  unfold answerQueryTag
  split
  · rfl
  · rw [hrecord]

theorem answerQueryTag_record {data : List Byte} (h : slotOf (byteAt p 1) = some i)
    (hd : tagRecord s.slots[i] (byteAt p 2) = some data) : answerQueryTag s p = doneWith s data := by
  simp only [answerQueryTag, h, hd]

theorem answerQueryRoute_noSlot (h : slotOf (byteAt p 1) = none) : answerQueryRoute s p = refuse s .value := by
  simp only [answerQueryRoute, h]

theorem answerQueryRoute_slot (h : slotOf (byteAt p 1) = some i) :
    answerQueryRoute s p =
      doneWith s (BitVec.ofNat 8 s.slots[i].map.route.length :: s.slots[i].map.route.flatMap hopBytes) := by
  simp only [answerQueryRoute, h, List.flatMap_def, List.singleton_append]

end

/-! ## The trail record -/

/-- The bits of a field given by its bits, clear above them. -/
theorem getLsbD_bitsToNat {w : Nat} {bs : List Bool} (h : bs.length ≤ w) (k : Nat) :
    (BitVec.ofNat w (bitsToNat bs)).getLsbD k = bs.getD k false := by
  rw [BitVec.getLsbD_ofNat, testBit_bitsToNat]
  by_cases hk : k < w
  · rw [decide_eq_true hk, Bool.true_and]
  · rw [List.getD_eq_default _ _ (by omega), Bool.and_false]

/-- The five bytes of the held identity are 00h without a held tag (R177). -/
theorem heldIdentity_bytes (held : Option HeldTag) :
    (held.map fun h => identityBytes h.identity).getD (List.replicate 5 0) =
      identityBytes ((held.map HeldTag.identity).getD ⟨0, 0, 0⟩) := by
  cases held <;> rfl

section
variable (s : State) (i : Slot)

/-- The layout of R177, byte by byte. -/
theorem trailRecord_eq :
    let sl := s.slots[i]
    let c := sl.context
    let d := (sl.tag.held.map HeldTag.identity).getD ⟨0, 0, 0⟩
    let epoch := (sl.tag.held.map HeldTag.epoch).getD 0
    let average := sl.probe.average.getD 0
    let oneWay := (sl.probe.average.map oneWayDelay).getD 0
    let working := sl.map.workingBaseline.getD 0
    let protect := sl.map.protectBaseline.getD 0
    let shift := BitVec.ofInt 16 (((slotShift sl.map sl.probe sl.tag.heldProtect).map Prod.fst).getD 0)
    let entry := entryOf s.probe.table i
    trailRecord s i =
      [BitVec.ofNat 8 i.val,
        BitVec.ofNat 8 ((if sl.map.rxRole = .terminate then 1 else 0) + 2 * txRoleCode sl.map.txRole),
        BitVec.ofNat 8 (stateCode c.state),
        BitVec.ofNat 8 (if c.state = .settling then causeCode (waitCause c.waitReason) else 0),
        BitVec.ofNat 8 ((c.lastCause.map causeCode).getD 0), trailFlags sl,
        BitVec.ofNat 8 (trailPresence s i / 256), BitVec.ofNat 8 (trailPresence s i),
        highByte d.node, lowByte d.node, d.port, highByte d.trail, lowByte d.trail, highByte epoch, lowByte epoch,
        BitVec.ofNat 8 (((slotMatch sl).map matchCode).getD 0),
        BitVec.ofNat 8 ((sl.tag.lastFault.map faultCode).getD 0),
        BitVec.ofNat 8 (c.settleTimer / 256), BitVec.ofNat 8 c.settleTimer,
        BitVec.ofNat 8 (c.soakCount / 256), BitVec.ofNat 8 c.soakCount,
        BitVec.ofNat 8 (c.erroredCount / 256), BitVec.ofNat 8 c.erroredCount,
        BitVec.ofNat 8 c.restartCount, BitVec.ofNat 8 c.strikes,
        BitVec.ofNat 8 (c.defectTimer / 256), BitVec.ofNat 8 c.defectTimer,
        BitVec.ofNat 8 (sl.probe.sampleCount / 256), BitVec.ofNat 8 sl.probe.sampleCount,
        BitVec.ofNat 8 (average / 65536), BitVec.ofNat 8 (average / 256), BitVec.ofNat 8 average,
        BitVec.ofNat 8 (oneWay / 65536), BitVec.ofNat 8 (oneWay / 256), BitVec.ofNat 8 oneWay,
        BitVec.ofNat 8 (working / 65536), BitVec.ofNat 8 (working / 256), BitVec.ofNat 8 working,
        BitVec.ofNat 8 (protect / 65536), BitVec.ofNat 8 (protect / 256), BitVec.ofNat 8 protect,
        highByte shift, lowByte shift,
        (entry.map ProbeEntry.number).getD 0, (entry.map fun e => if e.launch.isSome then 1 else 0).getD 0,
        highByte sl.map.expectedEpoch, lowByte sl.map.expectedEpoch] := by
  unfold trailRecord
  simp only [heldIdentity_bytes]
  cases entryOf s.probe.table i <;>
    simp only [optBytes, beBytes_one, beBytes_two, beBytes_three, halfBytes, identityBytes, shiftBytes,
      List.cons_append, List.nil_append, Option.map_some, Option.map_none, Option.getD_some, Option.getD_none]

end

/-- A slot without an entry in the probe table. -/
theorem entryOf_eq_none {t : Vector (Option ProbeEntry) 8} {i : Slot}
    (h : ∀ (k : Fin 8) (e : ProbeEntry), t[k] = some e → e.slot ≠ i) : entryOf t i = none := by
  refine List.find?_eq_none.mpr fun e he => ?_
  obtain ⟨k, hk⟩ := (mem_entriesOf t e).mp he
  simpa using h k e hk

/-! ## The fields of the trail record -/

section
variable (s : State) (i : Slot)

theorem trailRecord_length : (trailRecord s i).length = 47 := by
  rw [trailRecord_eq]
  rfl

theorem trailRecord_slot : (byteAt (trailRecord s i) 0).toNat = i.val := by
  rw [trailRecord_eq]
  exact Nat.mod_eq_of_lt (Nat.lt_trans i.isLt (by decide))

theorem trailRecord_roles : (byteAt (trailRecord s i) 1).toNat =
    (if s.slots[i].map.rxRole = .terminate then 1 else 0) + 2 * txRoleCode s.slots[i].map.txRole := by
  rw [trailRecord_eq]
  show (BitVec.ofNat 8 _).toNat = _
  cases s.slots[i].map.txRole <;> split <;> rfl

theorem trailRecord_state : byteAt (trailRecord s i) 2 = BitVec.ofNat 8 (stateCode s.slots[i].context.state) := by
  rw [trailRecord_eq]
  rfl

theorem trailRecord_waitReason : byteAt (trailRecord s i) 3 = BitVec.ofNat 8
    (if s.slots[i].context.state = .settling then causeCode (waitCause s.slots[i].context.waitReason) else 0) := by
  rw [trailRecord_eq]
  rfl

theorem trailRecord_lastCause :
    byteAt (trailRecord s i) 4 = BitVec.ofNat 8 ((s.slots[i].context.lastCause.map causeCode).getD 0) := by
  rw [trailRecord_eq]
  rfl

/-- The flags of R177 in their order; the bit above them is clear. -/
theorem trailRecord_flag (k : Nat) :
    let sl := s.slots[i]
    (byteAt (trailRecord s i) 5).getLsbD k =
      [sl.map.entry.isSome, sl.tag.heldProtect == .protect, sl.context.defectNow, sl.context.lossMark,
        sl.context.findingPending, ((slotShift sl.map sl.probe sl.tag.heldProtect).map Prod.snd).getD false,
        (sl.tag.held.map HeldTag.windowFlag).getD false].getD k false := by
  have hbyte : byteAt (trailRecord s i) 5 = trailFlags s.slots[i] := by
    rw [trailRecord_eq]
    rfl
  rw [hbyte]
  exact getLsbD_bitsToNat (by simp) k

/-- The presence bits of R177 in their order; the bits above them are clear. -/
theorem trailRecord_present (k : Nat) :
    let sl := s.slots[i]
    (halfAt (trailRecord s i) 6).getLsbD k =
      [sl.context.state == .settling, sl.context.lastCause.isSome, sl.tag.held.isSome,
        sl.tag.held.isSome && sl.map.entry.isSome, sl.tag.lastFault.isSome, sl.probe.average.isSome,
        sl.map.workingBaseline.isSome, sl.map.protectBaseline.isSome,
        (slotShift sl.map sl.probe sl.tag.heldProtect).isSome, (entryOf s.probe.table i).isSome].getD k false := by
  have hhalf : halfAt (trailRecord s i) 6 = BitVec.ofNat 16 (trailPresence s i) := by
    rw [trailRecord_eq]
    exact append_ofNat_bytes _
  rw [hhalf]
  exact getLsbD_bitsToNat (by simp) k

/-- The persistent fields of the held tag, 00h without one. -/
theorem trailRecord_held :
    ((trailRecord s i).drop 8).take 7 =
      identityBytes ((s.slots[i].tag.held.map HeldTag.identity).getD ⟨0, 0, 0⟩) ++
        halfBytes ((s.slots[i].tag.held.map HeldTag.epoch).getD 0) := by
  rw [trailRecord_eq]
  rfl

theorem trailRecord_heldFields {h : HeldTag} (hh : s.slots[i].tag.held = some h) :
    halfAt (trailRecord s i) 8 = h.identity.node ∧ byteAt (trailRecord s i) 10 = h.identity.port ∧
    halfAt (trailRecord s i) 11 = h.identity.trail ∧ halfAt (trailRecord s i) 13 = h.epoch := by
  rw [trailRecord_eq, hh]
  exact ⟨highByte_append_lowByte _, rfl, highByte_append_lowByte _, highByte_append_lowByte _⟩

theorem trailRecord_match :
    byteAt (trailRecord s i) 15 = BitVec.ofNat 8 (((slotMatch s.slots[i]).map matchCode).getD 0) := by
  rw [trailRecord_eq]
  rfl

theorem trailRecord_lastFault :
    byteAt (trailRecord s i) 16 = BitVec.ofNat 8 ((s.slots[i].tag.lastFault.map faultCode).getD 0) := by
  rw [trailRecord_eq]
  rfl

theorem trailRecord_counts :
    let c := s.slots[i].context
    halfAt (trailRecord s i) 17 = BitVec.ofNat 16 c.settleTimer ∧
    halfAt (trailRecord s i) 19 = BitVec.ofNat 16 c.soakCount ∧
    halfAt (trailRecord s i) 21 = BitVec.ofNat 16 c.erroredCount ∧
    byteAt (trailRecord s i) 23 = BitVec.ofNat 8 c.restartCount ∧
    byteAt (trailRecord s i) 24 = BitVec.ofNat 8 c.strikes ∧
    halfAt (trailRecord s i) 25 = BitVec.ofNat 16 c.defectTimer ∧
    halfAt (trailRecord s i) 27 = BitVec.ofNat 16 s.slots[i].probe.sampleCount := by
  rw [trailRecord_eq]
  exact ⟨append_ofNat_bytes _, append_ofNat_bytes _, append_ofNat_bytes _, rfl, rfl, append_ofNat_bytes _,
    append_ofNat_bytes _⟩

theorem trailRecord_average :
    ((trailRecord s i).drop 29).take 3 = beBytes 3 (s.slots[i].probe.average.getD 0) ∧
    ((trailRecord s i).drop 32).take 3 = beBytes 3 ((s.slots[i].probe.average.map oneWayDelay).getD 0) := by
  rw [trailRecord_eq]
  exact ⟨(beBytes_three _).symm, (beBytes_three _).symm⟩

theorem trailRecord_baselines :
    ((trailRecord s i).drop 35).take 3 = beBytes 3 (s.slots[i].map.workingBaseline.getD 0) ∧
    ((trailRecord s i).drop 38).take 3 = beBytes 3 (s.slots[i].map.protectBaseline.getD 0) := by
  rw [trailRecord_eq]
  exact ⟨(beBytes_three _).symm, (beBytes_three _).symm⟩

theorem trailRecord_shift {shift : Option (Int × Bool)}
    (h : slotShift s.slots[i].map s.slots[i].probe s.slots[i].tag.heldProtect = shift) :
    (halfAt (trailRecord s i) 6).getLsbD 8 = shift.isSome ∧
    (byteAt (trailRecord s i) 5).getLsbD 5 = (shift.map Prod.snd).getD false ∧
    halfAt (trailRecord s i) 41 = BitVec.ofInt 16 ((shift.map Prod.fst).getD 0) := by
  subst h
  refine ⟨trailRecord_present s i 8, trailRecord_flag s i 5, ?_⟩
  rw [trailRecord_eq]
  exact highByte_append_lowByte _

theorem trailRecord_unprobed (h : entryOf s.probe.table i = none) :
    (halfAt (trailRecord s i) 6).getLsbD 9 = false ∧ byteAt (trailRecord s i) 43 = 0 ∧
    byteAt (trailRecord s i) 44 = 0 := by
  refine ⟨(trailRecord_present s i 9).trans (congrArg Option.isSome h), ?_⟩
  rw [trailRecord_eq, h]
  exact ⟨rfl, rfl⟩

theorem trailRecord_probed {e : ProbeEntry} (h : entryOf s.probe.table i = some e) :
    (halfAt (trailRecord s i) 6).getLsbD 9 = true ∧ byteAt (trailRecord s i) 43 = e.number ∧
    byteAt (trailRecord s i) 44 = if e.launch = none then 0 else 1 := by
  refine ⟨(trailRecord_present s i 9).trans (congrArg Option.isSome h), ?_⟩
  rw [trailRecord_eq, h]
  refine ⟨rfl, ?_⟩
  show (if e.launch.isSome then 1 else 0) = _
  cases e.launch <;> rfl

theorem trailRecord_expectedEpoch : halfAt (trailRecord s i) 45 = s.slots[i].map.expectedEpoch := by
  rw [trailRecord_eq]
  exact highByte_append_lowByte _

end

/-- A match result is absent without a held tag or without an entry (R47). -/
theorem slotMatch_none {sl : SlotState} (h : sl.tag.held = none ∨ sl.map.entry = none) : slotMatch sl = none := by
  unfold slotMatch
  rcases h with h | h <;> rw [h]
  · cases sl.map.entry <;> rfl
  · rfl

theorem slotMatch_some {sl : SlotState} {h : HeldTag} {e : MapEntry} (hh : sl.tag.held = some h)
    (he : sl.map.entry = some e) : slotMatch sl = some (matchResult e h.identity) := by
  rw [slotMatch, he, hh]
  rfl

/-! ## The held tag -/

theorem flatten_halfBytes_length (route : List Half) : (route.map halfBytes).flatten.length = 2 * route.length := by
  induction route with
  | nil => rfl
  | cons n route ih =>
    rw [List.map_cons, List.flatten_cons, List.length_append, ih, List.length_cons, halfBytes, List.length_cons,
      List.length_singleton]
    omega

/-- The nodes of a route record stand two bytes each, in order. -/
theorem halfAt_flatten_halfBytes {route : List Half} {k : Nat} (h : k < route.length) (rest : List Byte) :
    halfAt ((route.map halfBytes).flatten ++ rest) (2 * k) = route[k] := by
  induction route generalizing k with
  | nil => exact absurd h (Nat.not_lt_zero k)
  | cons n route ih =>
    cases k with
    | zero => exact highByte_append_lowByte n
    | succ k => exact ih (Nat.lt_of_succ_lt_succ h)

/-- A held tag before its route record: 18 bytes in the layout of R19 (R178, log entry 18). -/
def heldTagHead (h : HeldTag) : List Byte :=
  [0x5C, highByte h.identity.node, lowByte h.identity.node, h.identity.port, highByte h.identity.trail,
    lowByte h.identity.trail, highByte h.epoch, lowByte h.epoch, if h.windowFlag then 1 else 0, 0, 0, 0, 0, 0, 0, 0,
    BitVec.ofNat 8 h.route.length, if h.overflow then 1 else 0]

theorem heldTagBytes_eq {h : HeldTag} (hr : h.route.length ≤ 6) :
    heldTagBytes h =
      heldTagHead h ++ ((h.route.map halfBytes).flatten ++ List.replicate (14 - 2 * h.route.length) 0) := by
  have hzeros : List.replicate (14 - 2 * h.route.length) (0 : Byte) =
      List.replicate (12 - 2 * h.route.length) 0 ++ [0, 0] := by
    rw [show 14 - 2 * h.route.length = 12 - 2 * h.route.length + 2 by omega, List.replicate_add]
    rfl
  unfold heldTagBytes
  simp only [flatten_halfBytes_length, hzeros, List.append_assoc]
  rfl

theorem heldTagHead_length (h : HeldTag) : (heldTagHead h).length = 18 := rfl

theorem halfAt_append_length (as bs : List Byte) (k : Nat) : halfAt (as ++ bs) (as.length + k) = halfAt bs k := by
  have hbyte (n : Nat) : byteAt (as ++ bs) (as.length + n) = byteAt bs n := by
    rw [byteAt, List.getD_append_right _ _ _ _ (Nat.le_add_right ..), Nat.add_sub_cancel_left, byteAt]
  rw [halfAt, hbyte, Nat.add_assoc, hbyte, halfAt]

section
variable {h : HeldTag} (hr : h.route.length ≤ 6)
include hr

theorem heldTagBytes_length : (heldTagBytes h).length = 32 := by
  rw [heldTagBytes_eq hr, List.length_append, List.length_append, heldTagHead_length, flatten_halfBytes_length,
    List.length_replicate]
  omega

/-- The fields before the route record, at the places of R19. -/
theorem heldTagBytes_fields :
    let d := heldTagBytes h
    byteAt d 0 = 0x5C ∧
    (halfAt d 1 = h.identity.node ∧ byteAt d 3 = h.identity.port ∧ halfAt d 4 = h.identity.trail ∧
      halfAt d 6 = h.epoch) ∧
    byteAt d 8 = (if h.windowFlag then 1 else 0) ∧ (d.drop 9).take 7 = List.replicate 7 0 ∧
    (byteAt d 16).toNat = h.route.length ∧ byteAt d 17 = (if h.overflow then 1 else 0) := by
  rw [heldTagBytes_eq hr]
  exact ⟨rfl, ⟨highByte_append_lowByte _, rfl, highByte_append_lowByte _, highByte_append_lowByte _⟩, rfl, rfl,
    Nat.mod_eq_of_lt (Nat.lt_of_le_of_lt hr (by decide)), rfl⟩

theorem heldTagBytes_route {k : Nat} (hk : k < h.route.length) : halfAt (heldTagBytes h) (18 + 2 * k) = h.route[k] := by
  rw [heldTagBytes_eq hr, ← heldTagHead_length h, halfAt_append_length, halfAt_flatten_halfBytes hk]

/-- Beyond the route record the bytes are 00h (R178). -/
theorem heldTagBytes_drop :
    (heldTagBytes h).drop (18 + 2 * h.route.length) = List.replicate (14 - 2 * h.route.length) 0 := by
  rw [heldTagBytes_eq hr, ← List.append_assoc]
  refine List.drop_left' ?_
  rw [List.length_append, heldTagHead_length, flatten_halfBytes_length]

end

/-! ## The forms of QUERY TAG -/

section
variable (sl : SlotState)

theorem tagRecord_held : tagRecord sl 0 = some (presentRecord 0 (sl.tag.held.map heldTagBytes)) := rfl

theorem tagRecord_lastValid :
    tagRecord sl 1 = some (presentRecord 1 (sl.tag.lastValid.map fun t => t.bytes ++ beBytes 4 t.stamp.toNat)) := rfl

theorem tagRecord_lastEmitted :
    tagRecord sl 2 = some (presentRecord 2
      (sl.tx.lastEmitted.map fun e => [BitVec.ofNat 8 (tagSourceCode e.source)] ++ e.bytes)) := rfl

theorem tagRecord_origin :
    tagRecord sl 3 = some [0x03, 0x01, if sl.map.txRole = .originate then 1 else 0, sl.map.originPort,
      highByte sl.map.originTrail, lowByte sl.map.originTrail, highByte sl.map.originEpoch,
      lowByte sl.map.originEpoch] := rfl

end

/-- Settles O49: the trail record and the tag records field by field, the route by the bytes of its hops. -/
theorem queriesAnswerTheStateOfASlot : Obligations.QueriesAnswerTheStateOfASlot := by
  intro s side r hr number answers causeByte
  refine ⟨fun hf => ?trail, fun hf => ?tag, fun hf => ?route⟩
  case trail =>
    refine ⟨_, execQueryTrail_eq hr side, fun h => ?refused, fun i hi => ⟨trailRecord s i, ?answered, ?_⟩⟩
    case refused => exact serve_refused hf rfl (answerQueryTrail_noSlot (slotOf_eq_none h))
    case answered => exact serve_answers hf rfl (answerQueryTrail_slot (slotOf_eq_some hi))
    intro sl c present wide
    have hpresent (k : Nat) : present k = _ := trailRecord_present s i k
    have hflag (k : Nat) : (byteAt (trailRecord s i) 5).getLsbD k = _ := trailRecord_flag s i k
    refine ⟨trailRecord_length s i, trailRecord_slot s i, ?roles, ?state, ?settling, fun h => ?notWaiting,
      fun h => ?waiting, ?hasCause, ?cause, ⟨hflag 0, hflag 1, hflag 2, hflag 3, hflag 4, hflag 6, hflag 7⟩,
      ⟨hpresent 2, hpresent 3⟩, fun h => ?notHeld, fun h => trailRecord_heldFields s i, fun h e hh he => ?matched,
      fun h => ?unmatched, ⟨hpresent 4, ?fault⟩, trailRecord_counts s i, ⟨hpresent 5, trailRecord_average s i⟩,
      ⟨hpresent 6, (trailRecord_baselines s i).1⟩, ⟨hpresent 7, (trailRecord_baselines s i).2⟩,
      fun h => trailRecord_shift s i h, fun v saturated h => trailRecord_shift s i h,
      fun h => trailRecord_unprobed s i (entryOf_eq_none h),
      fun hone k e hk he => trailRecord_probed s i (he ▸ entryOf_eq_some hone hk), fun k hk => ?unused,
      trailRecord_expectedEpoch s i⟩
    case roles =>
      refine (trailRecord_roles s i).trans (congrArg (Nat.add _) ?_)
      show 2 * txRoleCode sl.map.txRole = _
      cases sl.map.txRole <;> rfl
    case state =>
      refine (trailRecord_state s i).trans ?_
      show BitVec.ofNat 8 (stateCode c.state) = _
      cases c.state <;> rfl
    case settling =>
      rw [hpresent]
      exact beq_iff_eq
    case notWaiting =>
      refine (trailRecord_waitReason s i).trans ?_
      rw [if_neg h]
      rfl
    case waiting =>
      refine (trailRecord_waitReason s i).trans ?_
      rw [if_pos h]
      show BitVec.ofNat 8 (causeCode (waitCause c.waitReason)) = _
      cases c.waitReason <;> rfl
    case hasCause =>
      rw [hpresent]
      exact Option.isSome_iff_ne_none
    case cause =>
      refine (trailRecord_lastCause s i).trans ?_
      show BitVec.ofNat 8 ((c.lastCause.map causeCode).getD 0) = _
      rcases c.lastCause with _ | cause
      · rfl
      · cases cause <;> rfl
    case notHeld =>
      refine (trailRecord_held s i).trans ?_
      rw [h]
      rfl
    case matched =>
      rw [trailRecord_match, slotMatch_some hh he]
      cases matchResult e h.identity <;> rfl
    case unmatched =>
      rw [trailRecord_match, slotMatch_none h]
      rfl
    case fault =>
      refine (trailRecord_lastFault s i).trans ?_
      show BitVec.ofNat 8 ((sl.tag.lastFault.map faultCode).getD 0) = _
      rcases sl.tag.lastFault with _ | fault
      · rfl
      · cases fault <;> rfl
    case unused =>
      rw [hpresent]
      exact List.getD_eq_default _ _ hk
  case tag =>
    refine ⟨_, execQueryTag_eq hr side, ?_⟩
    intro form
    refine ⟨fun h => serve_refused hf rfl (h.elim (fun hs => answerQueryTag_noSlot (slotOf_eq_none hs))
      answerQueryTag_noForm), fun i hi => ?_⟩
    intro sl m
    have hanswer {data : List Byte} (hd : tagRecord sl form = some data) := serve_answers hf rfl
      (answerQueryTag_record (slotOf_eq_some hi) hd)
    refine ⟨fun h hn => hanswer ?notHeld, fun h hn => hanswer ?noValid, fun h hn => hanswer ?noEmitted,
      fun x h hx hl => ⟨heldTagBytes x, hanswer ?held, heldTagBytes_length hl, ?heldFields⟩,
      fun v h hv => hanswer ?valid, fun e h he => hanswer ?emitted, fun h => hanswer ?origin⟩
    case notHeld =>
      rw [h, tagRecord_held, hn]
      rfl
    case noValid =>
      rw [h, tagRecord_lastValid, hn]
      rfl
    case noEmitted =>
      rw [h, tagRecord_lastEmitted, hn]
      rfl
    case held =>
      rw [h, tagRecord_held, hx]
      rfl
    case heldFields =>
      obtain ⟨hkind, hidentity, hwindow, hzeros, hcount, hoverflow⟩ := heldTagBytes_fields hl
      refine ⟨hkind, hidentity, ⟨hcount, fun k hk => ?_⟩, hwindow, hoverflow, hzeros, heldTagBytes_drop hl⟩
      rw [heldTagBytes_route hl hk, List.getElem?_eq_getElem hk]
    case valid =>
      rw [h, tagRecord_lastValid, hv]
      rfl
    case emitted =>
      rw [h, tagRecord_lastEmitted, he]
      rcases e with ⟨source, bytes⟩
      cases source <;> rfl
    case origin => rw [h, tagRecord_origin]
  case route =>
    refine ⟨_, execQueryRoute_eq hr side, fun h => ?refused, fun i hi => ?answered⟩
    case refused => exact serve_refused hf rfl (answerQueryRoute_noSlot (slotOf_eq_none h))
    case answered =>
      refine serve_answers hf rfl ((answerQueryRoute_slot (slotOf_eq_some hi)).trans ?_)
      refine congrArg (fun f => doneWith s (_ :: s.slots[i].map.route.flatMap f)) (funext fun h => ?_)
      rcases h with ⟨index, node, condition⟩
      cases condition <;> rfl

end Sys2Proof.Machine
end

section
/-! PROOFS. What a command does to the queue of the commands: nothing, one equation per operation, and the step (O1). -/

namespace Sys2Proof.Machine

section
variable {s t : State} {p : Prop} [Decidable p]

theorem keepsQueue_when (h : t.pending = s.pending) : (if p then t else s).pending = s.pending := by
  rw [apply_ite State.pending, h, ite_self]

theorem keepsQueue_unless (h : t.pending = s.pending) : (if p then s else t).pending = s.pending := by
  rw [apply_ite State.pending, h, ite_self]

end

/-! ## Boundaries and the probe engine -/

theorem rotationStep_keepsQueue (s : State) : (rotationStep s).pending = s.pending := by
  unfold rotationStep
  split
  · rfl
  · split <;> rfl

theorem probeBoundary_keepsQueue (s : State) : (probeBoundary s).pending = s.pending := by
  unfold probeBoundary countInterval
  split
  · exact rotationStep_keepsQueue _
  · rfl

theorem engineBoundary_keepsQueue (s : State) : (engineBoundary s).pending = s.pending :=
  keepsQueue_when (probeBoundary_keepsQueue s)

theorem contextBoundary_keepsQueue (s : State) (i : Slot) : (contextBoundary s i).pending = s.pending :=
  keepsQueue_when rfl

theorem boundaryAt_keepsQueue (target : BoundaryAt) (s : State) : (boundaryAt target s).pending = s.pending := by
  cases target with
  | timebase => exact keepsQueue_unless rfl
  | context i => exact contextBoundary_keepsQueue s i
  | probeEngine => exact engineBoundary_keepsQueue s

theorem matchedEcho_keepsQueue (s : State) (i : Slot) (launch : Stamp) (h : EchoHandoff) :
    (matchedEcho s i launch h).pending = s.pending := by
  unfold matchedEcho
  dsimp only
  split
  · rfl
  · split <;> rfl

theorem takeEcho_keepsQueue (s : State) (i : Slot) (h : EchoHandoff) : (takeEcho s i h).pending = s.pending := by
  unfold takeEcho
  dsimp only
  split
  · rfl
  · rw [State.modSlot_pending]
    split
    · exact matchedEcho_keepsQueue ..
    · exact keepsQueue_unless rfl

theorem takeHandoff_keepsQueue (s : State) (i : Slot) (h : EchoHandoff) : (takeHandoff s i h).pending = s.pending :=
  keepsQueue_when (takeEcho_keepsQueue s i h)

/-! ## Outputs and frames -/

theorem startLineFrame_keepsQueue (s : State) (timing : Timing) (sent : Nat) (f : OutFrame) :
    (startLineFrame s timing sent f).pending = s.pending := by
  unfold startLineFrame
  dsimp only
  split
  · rfl
  · split <;> rfl

theorem startLocalFrame_keepsQueue (s : State) (output : Side) : (startLocalFrame s output).pending = s.pending := by
  cases output with
  | line => exact startLineFrame_keepsQueue ..
  | drop => rfl

theorem startCycle_keepsQueue (s : State) : (startCycle s).pending = s.pending := by
  unfold startCycle
  split
  · rfl
  · split <;> rfl

theorem startOutputs_keepsQueue (s : State) : (startOutputs s).pending = s.pending := by
  rw [startOutputs, startCycle_keepsQueue, startLocalFrame_keepsQueue, startLocalFrame_keepsQueue]

theorem leaveFollow_keepsQueue (s : State) (output : Side) (sent : Nat) :
    (leaveFollow s output sent).pending = s.pending := by
  rw [leaveFollow_rest]

theorem lineFrame_keepsQueue (s : State) (f : Frame) (sent : Nat) : (lineFrame s f sent).pending = s.pending := by
  unfold lineFrame
  dsimp only
  split
  case h_4 => exact leaveFollow_keepsQueue ..
  all_goals rfl

theorem deliverDrop_keepsQueue (s : State) (p : Phase) (f : Frame) (sent : Nat) :
    (deliverDrop s p f sent).pending = s.pending := by
  rw [deliverDrop_eq, startLineFrame_keepsQueue, followed_rest]
  rfl

theorem loseDrop_keepsQueue (s : State) (sent : Nat) : (loseDrop s sent).pending = s.pending := by
  unfold loseDrop
  dsimp only
  split
  · exact leaveFollow_keepsQueue ..
  · rfl

theorem dropFrame_keepsQueue (s : State) (f : Frame) (sent : Nat) : (dropFrame s f sent).pending = s.pending := by
  unfold dropFrame
  dsimp only
  split
  case h_4 => exact loseDrop_keepsQueue ..
  all_goals exact deliverDrop_keepsQueue ..

theorem lockedFrame_keepsQueue (s : State) (side : Side) (f : Frame) (sent : Nat) :
    (lockedFrame s side f sent).pending = s.pending := by
  cases side with
  | line => exact lineFrame_keepsQueue ..
  | drop => exact dropFrame_keepsQueue ..

/-! ## The report unit, the arbiters and the restart -/

theorem takeFinding_keepsQueue (s : State) (f : Finding) : (takeFinding s f).pending = s.pending := by
  rw [takeFinding_rest]

theorem startNotice_keepsQueue (s : State) (skip : Nat) : (startNotice s skip).pending = s.pending := by
  unfold startNotice
  split
  · rfl
  · exact keepsQueue_when rfl

theorem startBuffered_keepsQueue (s : State) (output : Side) (skip : Nat) :
    (startBuffered s output skip).pending = s.pending := by
  unfold startBuffered
  split <;> rfl

theorem endSending_keepsQueue (s : State) (output : Side) : (endSending s output).pending = s.pending := by
  unfold endSending
  split
  · rfl
  · dsimp only
    split
    case h_3 => exact keepsQueue_unless rfl
    all_goals rfl

theorem takeEffect_keepsQueue (s : State) (side : Side) (sent : Nat) :
    (takeEffect s side sent).pending = s.pending := by
  unfold takeEffect
  split
  · rfl
  · split
    · rfl
    · exact keepsQueue_when rfl

/-! ## Requests -/

/-- An owner that answers its requests without touching the queue of the commands. -/
def KeepsQueue (answer : State → List Byte → Answer) : Prop := ∀ s p, (answer s p).state.pending = s.pending

theorem serve_keepsQueue {answer : State → List Byte → Answer} (h : KeepsQueue answer) (s : State) (side : Side)
    (c : Command) : (serve s side c answer).pending = s.pending := by
  cases hf : findRequest s side c with
  | none => rw [serve_none hf]
  | some r =>
    rw [serve_state hf]
    exact h s r.payload

theorem answerSetNodeIdentity_keepsQueue : KeepsQueue answerSetNodeIdentity := by
  intro s p
  unfold answerSetNodeIdentity
  repeat' split
  all_goals rfl

theorem answerOpenWindow_keepsQueue : KeepsQueue answerOpenWindow := by
  intro s p
  rw [answerOpenWindow_eq, answerWindow]
  split <;> rfl

theorem answerCloseWindow_keepsQueue : KeepsQueue answerCloseWindow := by
  intro s p
  rw [answerCloseWindow_eq, answerWindow]
  split <;> rfl

theorem answerSetSlotRoles_keepsQueue : KeepsQueue answerSetSlotRoles := by
  intro s p
  unfold answerSetSlotRoles
  repeat' split
  all_goals rfl

theorem answerLoadMapEntry_keepsQueue : KeepsQueue answerLoadMapEntry := by
  intro s p
  unfold answerLoadMapEntry
  repeat' split
  all_goals rfl

theorem answerClearMapEntry_keepsQueue : KeepsQueue answerClearMapEntry := by
  intro s p
  unfold answerClearMapEntry
  repeat' split
  all_goals rfl

theorem answerLinkRoute_keepsQueue : KeepsQueue answerLinkRoute := by
  intro s p
  unfold answerLinkRoute
  dsimp only
  repeat' split
  all_goals rfl

theorem answerSetProfile_keepsQueue : KeepsQueue answerSetProfile := by
  intro s p
  unfold answerSetProfile
  split <;> rfl

theorem answerSetReporting_keepsQueue : KeepsQueue answerSetReporting := by
  intro s p
  unfold answerSetReporting
  split <;> rfl

theorem answerReverify_keepsQueue : KeepsQueue answerReverify := by
  intro s p
  unfold answerReverify
  repeat' split
  all_goals rfl

theorem answerQueryTrail_keepsQueue : KeepsQueue answerQueryTrail := by
  intro s p
  unfold answerQueryTrail
  split <;> rfl

theorem answerQueryTag_keepsQueue : KeepsQueue answerQueryTag := by
  intro s p
  unfold answerQueryTag
  repeat' split
  all_goals rfl

theorem answerQueryRoute_keepsQueue : KeepsQueue answerQueryRoute := by
  intro s p
  unfold answerQueryRoute
  split <;> rfl

theorem serveStatus_keepsQueue (s : State) (side : Side) (block : Block) :
    (serveStatus s side block).pending = s.pending := by
  unfold serveStatus
  split
  · rfl
  · dsimp only
    split <;> rfl

theorem clearItems_keepsQueue (s : State) (p : List Byte) (block : Block) :
    (clearItems s p block).pending = s.pending := by
  cases block <;> rfl

theorem serveClear_keepsQueue (s : State) (side : Side) (block : Block) :
    (serveClear s side block).pending = s.pending := by
  unfold serveClear
  split
  · rfl
  · dsimp only
    split <;> exact keepsQueue_when (clearItems_keepsQueue ..)

/-! ## Steps -/

/-- A step of the part answers a next state, with the queue as it was when its effect keeps it. -/
theorem act_keepsQueue {s : State} {f : State → State} (h : (f s).pending = s.pending) :
    ∃ t, act s f = .next t ∧ t.pending = s.pending :=
  ⟨_, act_eq s f, keepsQueue_unless h⟩

/-- Every command answers a next state, with the queue as it was. -/
theorem exec_keepsQueue (c : Instr) (s : State) : ∃ t, exec c s = .next t ∧ t.pending = s.pending := by
  cases c
  all_goals dsimp only [exec]
  -- Resets.
  case powerOn => exact ⟨_, rfl, startOutputs_keepsQueue _⟩
  case resetnAsserted => exact ⟨_, rfl, rfl⟩
  -- Boundaries.
  case localPeriodBoundary target => exact act_keepsQueue (boundaryAt_keepsQueue target s)
  case settleLimitReached i | soakEnd i | defectHoldReached i =>
    exact act_keepsQueue (keepsQueue_when (contextBoundary_keepsQueue s i))
  case intervalCountExpiry | probeTimeout index =>
    exact act_keepsQueue (keepsQueue_when (engineBoundary_keepsQueue s))
  -- The carrier streams.
  case huntCandidate | confirmFrame =>
    refine act_keepsQueue ?_
    split <;> rfl
  case lockedFrameJudged side arrival =>
    refine act_keepsQueue ?_
    split
    · exact lockedFrame_keepsQueue ..
    · rfl
  case localFrameStart output => exact act_keepsQueue (keepsQueue_when (startLocalFrame_keepsQueue s output))
  case transmitCycleStart => exact act_keepsQueue (startCycle_keepsQueue s)
  case transmitCycleComplete | refclkTick => exact act_keepsQueue rfl
  -- Events between the blocks.
  case cycleReport i | filterResetRequest i | baselineWrite i =>
    refine act_keepsQueue ?_
    split <;> rfl
  case streamLoss i | acceptedSample i | withdrawRequest i => exact act_keepsQueue (keepsQueue_unless rfl)
  case echoReceipt i =>
    refine act_keepsQueue ?_
    split
    · rfl
    · exact takeHandoff_keepsQueue ..
  case finding i =>
    refine act_keepsQueue ?_
    split
    · rfl
    · exact takeFinding_keepsQueue ..
  -- The management channel.
  case managementFrame side =>
    refine act_keepsQueue ?_
    split <;> rfl
  case noticeStart skip => exact act_keepsQueue (startNotice_keepsQueue s skip)
  case arbiterFrameStart output skip => exact act_keepsQueue (keepsQueue_when (startBuffered_keepsQueue s output skip))
  case arbiterFrameEnd output => exact act_keepsQueue (endSending_keepsQueue s output)
  -- Requests.
  case setNodeIdentity side => exact act_keepsQueue (serve_keepsQueue answerSetNodeIdentity_keepsQueue s side _)
  case readStatus side block => exact act_keepsQueue (serveStatus_keepsQueue s side block)
  case clearDetected side block => exact act_keepsQueue (serveClear_keepsQueue s side block)
  case openWindow side => exact act_keepsQueue (serve_keepsQueue answerOpenWindow_keepsQueue s side _)
  case closeWindow side => exact act_keepsQueue (serve_keepsQueue answerCloseWindow_keepsQueue s side _)
  case setSlotRoles side => exact act_keepsQueue (serve_keepsQueue answerSetSlotRoles_keepsQueue s side _)
  case loadMapEntry side => exact act_keepsQueue (serve_keepsQueue answerLoadMapEntry_keepsQueue s side _)
  case clearMapEntry side => exact act_keepsQueue (serve_keepsQueue answerClearMapEntry_keepsQueue s side _)
  case linkRoute side => exact act_keepsQueue (serve_keepsQueue answerLinkRoute_keepsQueue s side _)
  case setProfile side => exact act_keepsQueue (serve_keepsQueue answerSetProfile_keepsQueue s side _)
  case setReporting side => exact act_keepsQueue (serve_keepsQueue answerSetReporting_keepsQueue s side _)
  case reverify side => exact act_keepsQueue (serve_keepsQueue answerReverify_keepsQueue s side _)
  case queryTrail side => exact act_keepsQueue (serve_keepsQueue answerQueryTrail_keepsQueue s side _)
  case queryTag side => exact act_keepsQueue (serve_keepsQueue answerQueryTag_keepsQueue s side _)
  case queryRoute side => exact act_keepsQueue (serve_keepsQueue answerQueryRoute_keepsQueue s side _)
  case setProbing side | restart side => exact act_keepsQueue (serve_keepsQueue (fun _ _ => rfl) s side _)
  -- The restart.
  case restartTakesEffect moment => exact act_keepsQueue (takeEffect_keepsQueue s moment.side moment.sent)
  case contextRestart i => exact act_keepsQueue (keepsQueue_unless rfl)
  case tagReceiverRestart | lineTransmitterRestart | probeEngineRestart | reportUnitRestart =>
    exact act_keepsQueue (keepsQueue_unless rfl)

theorem step_front {s : State} {c : Instr} {rest : List Instr} (h : s.pending = c :: rest) :
    step s = exec c { s with pending := rest } := by
  rw [step, h]

theorem step_idle {s : State} (h : s.pending = []) : step s = .next s := by
  rw [step, h]

/-- Settles O1: `step` by its two cases, and every command keeps the queue that it is given. -/
theorem stepRunsTheFrontCommand : Obligations.StepRunsTheFrontCommand :=
  fun s => ⟨fun _ _ => step_front, fun c => exec_keepsQueue c s, step_idle⟩

end Sys2Proof.Machine
end
